-- ==== Sys2Proof/Config.lean ====
section
/-! DEFINITION. The implementation parameters of 00_scope.md R9 and the values the spec leaves OPEN. -/

namespace Sys2Proof.Config

/-! Parameters with a value (00_scope.md R9; UNVERIFIED as R9 and U9 say, log 19). -/

/-- `FRAME_LEN` (R9): bytes of a frame. -/
abbrev frameLen : Nat := 15

/-- `PAYLOAD_MAX` (R9): bytes of a frame's data field. -/
abbrev payloadMax : Nat := 8

/-- `CRC_SCOPE_LEN` (R9): bytes the frame CRC covers, frame offsets 1 to 11. -/
abbrev crcScopeLen : Nat := 11

/-- `START_BYTE` (R9). -/
abbrev startByte : BitVec 8 := 0xAA

/-- `STOP_BYTE` (R9). -/
abbrev stopByte : BitVec 8 := 0x55

/-- `CRC_POLY` (R9). -/
abbrev crcPoly : BitVec 16 := 0x1021

/-- `CRC_INIT` (R9). -/
abbrev crcInit : BitVec 16 := 0xFFFF

/-- `CRC_XOROUT` (R9): what the CRC is xored with at the end; zero, so no final XOR. -/
abbrev crcXorOut : BitVec 16 := 0x0000

/-- `CRC_REFLECT` (R9, 92_eei_decisions.md D5): whether the bits of the input bytes and of the result are reflected. -/
abbrev crcReflect : Bool := false

/-- `TIME_W` (R9, 92_eei_decisions.md D3): bits of a time value. -/
@[simp] abbrev timeW : Nat := 32

/-- `TYPE_DATA` (R9, R81). -/
abbrev typeData : BitVec 8 := 0

/-- `TYPE_ACK` (R9, R81). -/
abbrev typeAck : BitVec 8 := 1

/-- `TYPE_NACK` (R9, R81). -/
abbrev typeNack : BitVec 8 := 2

/-- `TYPE_RESET` (R9, R81). -/
abbrev typeReset : BitVec 8 := 3

/-- `READ_TIMEOUT_MS` (R9). -/
abbrev readTimeoutMs : Nat := 100

/-- `ACK_TIMEOUT_MS` (R9). -/
abbrev ackTimeoutMs : Nat := 500

/-- `RX_TIMEOUT_MS` (R9). -/
abbrev rxTimeoutMs : Nat := 500

/-- `SILENCE_TIMEOUT_MS` (R9). -/
abbrev silenceTimeoutMs : Nat := 10000

/-- `MAX_RETRY_COUNT` (R9). -/
abbrev maxRetryCount : Nat := 5

/-- `PENDING_DEPTH` (R9). -/
abbrev pendingDepth : Nat := 4

/-- `TRANSITION_CAP = FRAME_LEN + 2` (R9, 92_eei_decisions.md D7). -/
abbrev transitionCap : Nat := frameLen + 2

/-! A value the rules leave open. It has no body: no proof can learn it. -/

/-- What ICNT holds after the increment past 15, which its four bits cannot hold and for which 42_incoming.md R171 states
no value (log 12): a free value, one for every use. -/
opaque freeIcnt : Nat → BitVec 4

/-! OPEN parameters (R9). They have no body: no proof can learn their value. -/

/-- `CAP_PO`, OPEN (R9, R61, D21; log 3). -/
opaque capPO : Nat

/-- `CAP_EO`, OPEN (R9, R61, D21; log 3). -/
opaque capEO : Nat

/-- `CAP_EI`, OPEN (R9, R61, D21; log 3). -/
opaque capEI : Nat

/-- `CAP_PI`, OPEN (R9, R61, D21; log 3). -/
opaque capPI : Nat

/-- The OPEN assignment of wire codes to NACK reasons (R9, R241, D6; log 4): a permutation of the byte values, applied
by `Sys2Proof.Machine.nackCode` to a number of the reason. Every injective map from the four reasons to bytes is one of
these, so nothing is assumed of `nackCode` but that it is injective. -/
opaque nackCodeAssignment : Equiv.Perm (BitVec 8)

end Sys2Proof.Config
end

