-- ==== Sys2Proof/Word.lean ====
section
/-! DEFINITION. The widths of the block's values (00_scope.md R10, R11). All values are unsigned. -/

namespace Sys2Proof

/-- A byte: a stream byte, a packet number, a frame field (R10). -/
abbrev Byte := BitVec 8

/-- The 16-bit CRC (R10). -/
abbrev Word := BitVec 16

/-- A millisecond time value, `TIME_W` bits (R9, R13). -/
abbrev Time := BitVec Config.timeW

/-- The eight bytes of a frame's data field, and of OBUF (R80, R24). -/
abbrev Payload := Vector Byte Config.payloadMax

/-- A frame: exactly 15 bytes, byte 0 first on the wire (R11, R80). -/
abbrev Frame := Vector Byte Config.frameLen

end Sys2Proof
end

