-- ==== Sys2Proof/Syntax.lean ====
section
/-! DEFINITION. The instructions of the block: one constructor for each row of spec/opcode_table.json (00_scope.md R2:
the wire packet types, the commands and the state-machine transitions), and the small sets of names its rules use. -/

namespace Sys2Proof

/-- The two state machines (30_encoding.md R91). -/
inductive MachineId where
  | outgoing
  | incoming
deriving DecidableEq, Repr

/-- The reasons `validate` can fail for (60_exceptions.md R241). -/
inductive NackReason where
  | invalidFraming
  | invalidType
  | invalidLength
  | invalidCrc
deriving DecidableEq, Repr

/-- The instructions. -/
inductive Instr where
  /-- Row DATA: a received frame of type 0 (R80, R175). -/
  | data (pn len : Byte) (payload : Payload) (crc : Word)
  /-- Row ACK: a received frame of type 1 (R80, R173). -/
  | ack (pn len : Byte) (payload : Payload) (crc : Word)
  /-- Row NACK: a received frame of type 2 (R80, R173). -/
  | nack (pn len : Byte) (payload : Payload) (crc : Word)
  /-- Row RESET: a received frame of type 3 (R80, R176). -/
  | reset (pn len : Byte) (payload : Payload) (crc : Word)
  /-- Row TICK, command 0x01 (R88, R209). -/
  | tick (now : Time)
  /-- Row SEND_RESET, command 0x02 (R88, R211). -/
  | sendReset (now : Time)
  /-- Row RESET_NUMBERING, command 0x03 (R88, R212). -/
  | resetNumbering (now : Time)
  /-- Row CRC16, command 0x10; the operand n is the number of bytes (R88, R112). -/
  | crc16 (bytes : List Byte)
  /-- Row PREPARE, command 0x11; the operand len is the number of payload bytes (R88, R115). -/
  | prepare (type pn : Byte) (payload : List Byte)
  /-- Row VALIDATE, command 0x12 (R88, R117). -/
  | validate (frame : Frame)
  /-- Row OUT_READ_DATA, selector 0b000 (R91, R140). -/
  | outReadData
  /-- Row OUT_SEND_PACKAGE, selector 0b001 (R91, R141). -/
  | outSendPackage
  /-- Row OUT_WAIT_FOR_ACK_OR_NACK, selector 0b010 (R91, R142). -/
  | outWaitForAckOrNack
  /-- Row OUT_CORRUPT, selector 0b011 (R91, R143). -/
  | outCorrupt
  /-- Row IN_WAIT_FOR_START_BYTE, selector 0b100 (R91, R170). -/
  | inWaitForStartByte
  /-- Row IN_READ_INCOMING_DATA, selector 0b101 (R91, R171). -/
  | inReadIncomingData
  /-- Row IN_PROCESS_INCOMING_DATA, selector 0b110 (R91, R172). -/
  | inProcessIncomingData
  /-- Row IN_CORRUPT, selector 0b111 (R91, R174). -/
  | inCorrupt
deriving DecidableEq, Repr

/-- An encoded instruction, in one of the three formats of spec/opcode_table.json. -/
inductive Code where
  /-- Format `frame15`: the 15 bytes of a frame (R80). -/
  | frame (f : Frame)
  /-- Format `cmd`: a command byte and its operands (R88). -/
  | command (bytes : List Byte)
  /-- Format `state`: the selector, machine then state (R91). -/
  | selector (v : BitVec 3)
deriving DecidableEq, Repr

end Sys2Proof
end

