-- ==== Sys2Proof/Machine/Operands.lean ====
section
/-! DEFINITION. The operand forms: byte order (20_memory.md R62 to R64, 30_encoding.md R90) and the fields of a frame
(30_encoding.md R80). -/

namespace Sys2Proof.Machine

/-- The high byte `v[15:8]` of a CRC (R63). -/
def hiByte (v : Word) : Byte := v.extractLsb' 8 8

/-- The low byte `v[7:0]` of a CRC (R63). -/
def loByte (v : Word) : Byte := v.extractLsb' 0 8

/-- `{hi, lo}`, the 16-bit value `hi*256 + lo` (00_scope.md R11). -/
def wordOfBytes (hi lo : Byte) : Word := BitVec.ofNat 16 (hi.toNat * 256 + lo.toNat)

/-- The `now` operand from its four bytes, the first the most significant (R90). -/
def timeOfBytes (b0 b1 b2 b3 : Byte) : Time :=
  BitVec.ofNat Config.timeW (b0.toNat * 2 ^ 24 + b1.toNat * 2 ^ 16 + b2.toNat * 2 ^ 8 + b3.toNat)

/-- The four bytes of a `now` operand, the most significant first (R88, R90). -/
def bytesOfTime (t : Time) : List Byte :=
  [t.extractLsb' 24 8, t.extractLsb' 16 8, t.extractLsb' 8 8, t.extractLsb' 0 8]

/-- The frame with the given fields (R80): markers at offsets 0 and 14, the CRC big-endian at 12 and 13. -/
def frameOfFields (type pn len : Byte) (p : Payload) (crc : Word) : Frame :=
  #v[Config.startByte, pn, type, len, p[0], p[1], p[2], p[3], p[4], p[5], p[6], p[7],
    hiByte crc, loByte crc, Config.stopByte]

/-- The packetNumber field, offset 1 (R80). -/
def framePn (f : Frame) : Byte := f[1]

/-- The type field, offset 2 (R80). -/
def frameType (f : Frame) : Byte := f[2]

/-- The length field, offset 3 (R80). -/
def frameLength (f : Frame) : Byte := f[3]

/-- The data field, offsets 4 to 11 (R80). -/
def framePayload (f : Frame) : Payload := #v[f[4], f[5], f[6], f[7], f[8], f[9], f[10], f[11]]

/-- The CRC field `{f[12], f[13]}` (R80, R84). -/
def frameCrcField (f : Frame) : Word := wordOfBytes f[12] f[13]

/-- The bytes a DATA frame delivers, `f[4 .. 4+f[3]-1]` (42_incoming.md R172, R175). -/
def deliveredBytes (f : Frame) : List Byte := (framePayload f).toList.take (frameLength f).toNat

end Sys2Proof.Machine
end

