-- ==== Sys2Proof/Machine/Codec.lean ====
section
/-! DEFINITION. The CRC-16 generator and the frame codec (40_crc_codec.md). Pure functions (R118). -/

namespace Sys2Proof.Machine

/-- One turn of the loop of 40_crc_codec.md R110: a left shift, with the polynomial where bit 15 was set. -/
def crcShift (c : Word) : Word :=
  if c.getLsbD 15 then (c <<< 1) ^^^ Config.crcPoly else c <<< 1

/-- `crcStep(c, b)` (R110): the byte enters most significant bit first. -/
def crcStep (c : Word) (b : Byte) : Word := crcShift^[8] (c ^^^ (b.setWidth 16 <<< 8))

/-- An input byte as `CRC_REFLECT` has it enter (00_scope.md R9). -/
def crcInput (b : Byte) : Byte := if Config.crcReflect then b.reverse else b

/-- The result as `CRC_REFLECT` and `CRC_XOROUT` have it leave (R9). -/
def crcOutput (c : Word) : Word := (if Config.crcReflect then c.reverse else c) ^^^ Config.crcXorOut

/-- `CRC16(b[0..n-1])` (R111). With R9's values the bytes enter and the result leaves as they are. -/
def crc16 (bytes : List Byte) : Word :=
  crcOutput ((bytes.map crcInput).foldl crcStep Config.crcInit)

/-- The CRC's scope: offsets 1 to 11, packetNumber, type, length and data (R84, R113). -/
def crcScope (f : Frame) : List Byte := (f.toList.drop 1).take Config.crcScopeLen

/-- `frameCrc(f)` (R113). -/
def frameCrc (f : Frame) : Word := crc16 (crcScope f)

/-- The data field that holds payload `p` padded with zeros (30_encoding.md R83, R114). -/
def padPayload (p : List Byte) : Payload :=
  #v[p.getD 0 0, p.getD 1 0, p.getD 2 0, p.getD 3 0, p.getD 4 0, p.getD 5 0, p.getD 6 0, p.getD 7 0]

/-- `prepare(type, pn, payload)` (R114), for type at most 3 and at most 8 payload bytes. It does not check the per-type
length rule. -/
def prepare (type pn : Byte) (p : List Byte) : Frame :=
  let len := BitVec.ofNat 8 p.length
  frameOfFields type pn len (padPayload p) (frameCrc (frameOfFields type pn len (padPayload p) 0))

/-- `lengthOk(type, len)` (30_encoding.md R82). -/
def lengthOk (type len : Byte) : Bool :=
  if type = Config.typeData then decide (len.toNat ≤ Config.payloadMax)
  else if type = Config.typeAck ∨ type = Config.typeReset then decide (len = 0)
  else if type = Config.typeNack then decide (len = 1)
  else false

/-- `validate(frame)` (R116): markers, type, length, CRC, in that order. `none` is Ok, `some r` is Err(r). -/
def validate (f : Frame) : Option NackReason :=
  if f[0] ≠ Config.startByte ∨ f[14] ≠ Config.stopByte then some .invalidFraming
  else if (frameType f).toNat > 3 then some .invalidType
  else if lengthOk (frameType f) (frameLength f) = false then some .invalidLength
  else if frameCrc f ≠ frameCrcField f then some .invalidCrc
  else none

/-- The reason index of the VALIDATE response (30_encoding.md R88, R117); 0x00, for a valid frame, is not a reason's. -/
def reasonIndex : NackReason → Byte
  | .invalidFraming => 0x01
  | .invalidType => 0x02
  | .invalidLength => 0x03
  | .invalidCrc => 0x04

/-- `nackCode(reason)` (60_exceptions.md R241, OPEN): the wire code, the payload byte of a NACK frame. The reason index
only numbers the reasons for the opaque assignment, which gives them any four different codes (log 4). -/
def nackCode (r : NackReason) : Byte := Config.nackCodeAssignment (reasonIndex r)

/-- ACK(n) (30_encoding.md R85). -/
def ackFrame (pn : Byte) : Frame := prepare Config.typeAck pn []

/-- NACK(n, r) (R85). -/
def nackFrame (pn : Byte) (r : NackReason) : Frame := prepare Config.typeNack pn [nackCode r]

/-- RESET, always numbered 0 (R85). -/
def resetFrame : Frame := prepare Config.typeReset 0 []

end Sys2Proof.Machine
end

