-- ==== Sys2Proof/Machine/State.lean ====
section
/-! DEFINITION. The state of the block (10_state.md R20 to R33, R39), plain data, and the state after reset. -/

namespace Sys2Proof.Machine

/-- The kind of a queued response: the packet type code 1 (ACK) or 2 (NACK) (10_state.md R31). -/
inductive ResponseKind where
  | ack
  | nack
deriving DecidableEq, Repr

/-- An entry of the pending-message queue (R31). `reason` is absent for an ACK. -/
structure PendingMessage where
  kind : ResponseKind
  pn : Byte
  reason : Option Byte
deriving DecidableEq, Repr

/-- The output streams a BufferFull event can name (60_exceptions.md R243). -/
inductive OutPort where
  | eo
  | pi
deriving DecidableEq, Repr

/-- The diagnostic events (R243). -/
inductive DiagEvent where
  | bufferFull (port : OutPort)
  | maxRetriesExceeded (pn : Byte)
  | tooManyStateTransitions (machine : MachineId)
  | queueOverflow (kind : ResponseKind) (pn : Byte)
  | corruptState (machine : MachineId)
  | silenceReset
  | invalidFrame (reason : NackReason)
deriving DecidableEq, Repr

/-- A byte stream: the bytes queued, oldest first, and the capacity of its buffer (20_memory.md R60, R61). -/
structure Port where
  bytes : List Byte
  capacity : Nat
deriving DecidableEq, Repr

/-- What the agents outside the block can do at a step boundary (R69, R71, 70_reset_and_hazards.md R270). -/
inductive Input where
  /-- The driver issues command bytes. -/
  | command (bytes : List Byte)
  /-- `por` is sampled, with its time value (R270). -/
  | por (now : Time)
  /-- The application queues bytes in PO. -/
  | producePO (bytes : List Byte)
  /-- The link delivers bytes to EI. -/
  | deliverEI (bytes : List Byte)
  /-- The consumer of EO removes the oldest `n` bytes. -/
  | drainEO (n : Nat)
  /-- The consumer of PI removes the oldest `n` bytes. -/
  | drainPI (n : Nat)
deriving DecidableEq, Repr

/-- The command in progress (43_sequencing.md R208, R209). -/
inductive Phase where
  /-- No command is in progress. -/
  | idle
  /-- A TICK is running machine `machine`, of which `count` transitions have returned progress. -/
  | running (machine : MachineId) (count : Nat)
deriving DecidableEq, Repr

/-- The state of the block and of the streams it is connected to. -/
structure State where
  /-- OPN, the outgoing packet number (R21). -/
  opn : Byte
  /-- LIPN, the last incoming packet number (R22). -/
  lipn : Byte
  /-- OST, the outgoing machine's state (R23). -/
  ost : BitVec 2
  /-- OBUF[0..7], the outgoing accumulation buffer (R24). -/
  obuf : Payload
  /-- OCNT, the bytes of OBUF in use (R24). -/
  ocnt : BitVec 4
  /-- ORETRY, the retry counter (R25). -/
  oretry : BitVec 3
  /-- OREAD_MARK, the start of the read timer (R26). -/
  oreadMark : Time
  /-- OACK_MARK, the start of the ACK/NACK timer (R27). -/
  oackMark : Time
  /-- IST, the incoming machine's state (R28). -/
  ist : BitVec 2
  /-- IBUF[0..14], the receive frame buffer (R29). -/
  ibuf : Frame
  /-- ICNT, the bytes of IBUF in use (R29). -/
  icnt : BitVec 4
  /-- IRX_MARK, the start of the reception timer (R30). -/
  irxMark : Time
  /-- PQ, the pending-message queue, oldest entry first (R31). Its length is PQ_LEN (R32; log 17). -/
  pq : List PendingMessage
  /-- SIL_MARK, the start of the silence timer (R33). -/
  silMark : Time
  /-- `now`, the time sampled for the current command (00_scope.md R12, R13). -/
  now : Time
  /-- The command in progress (log 6). -/
  phase : Phase
  /-- PO, plain-outbound (R39, R61). -/
  po : Port
  /-- EO, encoded-outbound (R39, R61). -/
  eo : Port
  /-- EI, encoded-inbound (R39, R61). -/
  ei : Port
  /-- PI, plain-inbound (R39, R61). -/
  pi : Port
  /-- The command stream: bytes the driver has issued and the block has not taken (R39, R88). -/
  cmd : List Byte
  /-- The response stream, oldest byte first (R39, R88; log 18). -/
  resp : List Byte
  /-- `diag`, the events emitted, oldest first (R39, R243; log 18). -/
  diag : List DiagEvent
  /-- What the agents outside do: one batch for each step boundary to come, the next one first (R71; log 7). -/
  schedule : List (List Input)
  /-- The MODEL's own field, no part of the block: how many free values have been used (log 12, log 23). -/
  freeCount : Nat
deriving DecidableEq, Repr

/-- PQ_LEN, the number of entries in PQ, 3 bits (R32). -/
def State.pqLen (s : State) : BitVec 3 := BitVec.ofNat 3 s.pq.length

/-- Why the block stops. The spec has no traps (60_exceptions.md R240); this is a register value outside 10_state.md R37
for which no rule gives an effect. No state that a run reaches has it (log 24). -/
inductive Fault where
  /-- Raised by SEND_PACKAGE (R141) with OCNT above 8: `prepare` takes at most 8 payload bytes (R114) and OBUF has no
  more. Safe. -/
  | ocntBeyondBuffer
deriving DecidableEq, Repr

/-- Why the model gives no meaning. -/
inductive Refusal where
  /-- An instruction without a meaning; no arm of exec answers it. Safe. -/
  | notModelled (mnemonic : String)
  /-- Raised by a command executed while a TICK is in progress: commands must not overlap and a model may refuse them
  (70_reset_and_hazards.md R274, 93_implementation_defined.md U7). `step` never does it: it takes a command only when
  none is in progress. Safe. -/
  | overlappingCommands
deriving DecidableEq, Repr

/-- The answer of a transition (43_sequencing.md R207). -/
inductive Transition where
  /-- It changed a block register or a stream. -/
  | progress (s : State)
  /-- It changed neither; it may have emitted a diagnostic event. -/
  | noProgress (s : State)
  /-- A register value outside R37. -/
  | fault (r : Fault)
deriving DecidableEq, Repr

/-- What PROCESS_INCOMING_DATA decides a frame needs (42_incoming.md R172, part 1). -/
structure FrameAction where
  /-- The frame to send back. -/
  reply : Option Frame
  /-- The payload to deliver to PI. -/
  deliver : Option (List Byte)
  /-- Whether to reset the packet numbering. -/
  doReset : Bool
  /-- The response to queue for the outgoing machine. -/
  enqueue : Option PendingMessage
  /-- The reason `validate` failed for (42_incoming.md R177). -/
  invalid : Option NackReason
deriving DecidableEq, Repr

/-- The block right after power-on reset (70_reset_and_hazards.md R270, 10_state.md R20), `por` sampled at time 0 (log 1).
The registers R20 leaves unspecified are 0 (log 2), the streams are empty and no outside action is due (log 5), the
capacities are the OPEN parameters (log 3), no free value has been used (log 23). -/
def State.reset : State where
  opn := 1
  lipn := 0
  ost := 0
  obuf := Vector.replicate Config.payloadMax 0
  ocnt := 0
  oretry := 0
  oreadMark := 0
  oackMark := 0
  ist := 0
  ibuf := Vector.replicate Config.frameLen 0
  icnt := 0
  irxMark := 0
  pq := []
  silMark := 0
  now := 0
  phase := .idle
  po := ⟨[], Config.capPO⟩
  eo := ⟨[], Config.capEO⟩
  ei := ⟨[], Config.capEI⟩
  pi := ⟨[], Config.capPI⟩
  cmd := []
  resp := []
  diag := []
  schedule := []
  freeCount := 0

end Sys2Proof.Machine
end

