-- ==== Sys2Proof/Machine/Flags.lean ====
section
/-! DEFINITION. The block has no flags or condition codes (10_state.md R35): it reports results through responses
(30_encoding.md R88) and diagnostic events. This file holds the response codes and event tags that stand in their place. -/

namespace Sys2Proof.Machine

/-- Status of TICK, RESET_NUMBERING and a SEND_RESET whose frame was written (R88). -/
def statusDone : Byte := 0x00

/-- Status of a SEND_RESET whose frame was not written (R88, 43_sequencing.md R211). -/
def statusNotWritten : Byte := 0x01

/-- Status of a refused command (R88, R89). -/
def statusRefused : Byte := 0xFF

/-- The response of VALIDATE (40_crc_codec.md R117): ok flag, reason index. -/
def verdictResponse : Option NackReason → List Byte
  | none => [0x01, 0x00]
  | some r => [0x00, reasonIndex r]

/-- The response of CRC16 (R112): the CRC, big-endian. -/
def crcResponse (bytes : List Byte) : List Byte := [hiByte (crc16 bytes), loByte (crc16 bytes)]

/-- The response of PREPARE (R115): the frame, or 0xFF where type > 3 or len > 8. -/
def prepareResponse (type pn : Byte) (payload : List Byte) : List Byte :=
  if type.toNat > 3 ∨ payload.length > Config.payloadMax then [statusRefused]
  else (prepare type pn payload).toList

/-- The tag of a diagnostic event (60_exceptions.md R243). -/
def DiagEvent.tag : DiagEvent → Byte
  | .bufferFull _ => 0x01
  | .maxRetriesExceeded _ => 0x02
  | .tooManyStateTransitions _ => 0x03
  | .queueOverflow _ _ => 0x04
  | .corruptState _ => 0x05
  | .silenceReset => 0x06
  | .invalidFrame _ => 0x07

end Sys2Proof.Machine
end

