-- ==== Sys2Proof/Machine/Ops.lean ====
section
/-! DEFINITION. The named operations over streams, timers, the sequence numbers, the queue and the resets, which the
meanings share. There is no operation that takes an exception or returns from one: the block has no traps, and each
recovery action completes inside the transition that detects its condition (60_exceptions.md R240, R247, R248). -/

namespace Sys2Proof.Machine

/-! ## Streams (00_scope.md R14, 20_memory.md R66, R67) -/

/-- `available()`: the number of bytes queued. -/
def Port.available (p : Port) : Nat := p.bytes.length

/-- `availableForWrite()`: the free space. -/
def Port.availableForWrite (p : Port) : Nat := p.capacity - p.bytes.length

/-- `read()`, what it leaves: the oldest byte is gone. -/
def Port.dropOldest (p : Port) : Port := { p with bytes := p.bytes.tail }

/-- `write(bs)`: appends, oldest first. -/
def Port.write (p : Port) (bs : List Byte) : Port := { p with bytes := p.bytes ++ bs }

/-- What a collaborator's own append leaves: the buffer is bounded, so only what fits is queued (log 7). -/
def Port.fill (p : Port) (bs : List Byte) : Port := p.write (bs.take p.availableForWrite)

/-- What a consumer leaves when it removes the oldest `n` bytes. -/
def Port.drain (p : Port) (n : Nat) : Port := { p with bytes := p.bytes.drop n }

/-- Whether EO can take a whole frame (R66). -/
def State.eoHasRoom (s : State) : Bool := decide (Config.frameLen ≤ s.eo.availableForWrite)

/-- `EO.write(frame)`: the 15 bytes in offset order (20_memory.md R62, R66). -/
def State.writeFrame (s : State) (f : Frame) : State := { s with eo := s.eo.write f.toList }

/-- `diag(E)` (R15, 60_exceptions.md R243). -/
def State.emit (s : State) (e : DiagEvent) : State := { s with diag := s.diag ++ [e] }

/-- Appends a command's response (30_encoding.md R88). -/
def State.respond (s : State) (bs : List Byte) : State := { s with resp := s.resp ++ bs }

/-! ## Time (R13) -/

/-- `elapsed(mark) = (now - mark) mod 2^TIME_W`. -/
def State.elapsed (s : State) (mark : Time) : Nat := (s.now - mark).toNat

/-- A timer started at `mark` with timeout `t` has expired when `elapsed(mark) >= t`. -/
def State.expired (s : State) (mark : Time) (t : Nat) : Bool := decide (t ≤ s.elapsed mark)

/-! ## Sequence numbers (43_sequencing.md R200, R201) -/

/-- `advanceOPN()` (R200): 255 wraps to 1 and clears LIPN. -/
def State.advanceOPN (s : State) : State :=
  if s.opn = 255 then { s with opn := 1, lipn := 0 } else { s with opn := s.opn + 1 }

/-- `isNew(pn)` (R201): unsigned, no wraparound. -/
def State.isNew (s : State) (pn : Byte) : Bool := decide (s.lipn.toNat < pn.toNat)

/-! ## The pending-message queue (R202, R203) -/

/-- `pqPush(e)` (R202): on overflow the new entry is dropped. -/
def State.pqPush (s : State) (e : PendingMessage) : State :=
  if s.pq.length < Config.pendingDepth then { s with pq := s.pq ++ [e] }
  else s.emit (.queueOverflow e.kind e.pn)

/-- `pqPop()` (R203), what it leaves; the entry it returns is the head. -/
def State.pqDropHead (s : State) : State := { s with pq := s.pq.tail }

/-! ## Resets (R204 to R206, 70_reset_and_hazards.md R270) -/

/-- `resetOutgoingMachine()` (R204). -/
def State.resetOutgoingMachine (s : State) : State := { s with ost := 0, ocnt := 0, oretry := 0 }

/-- `resetIncomingMachine()` (R205). -/
def State.resetIncomingMachine (s : State) : State := { s with ist := 0, icnt := 0 }

/-- `resetPacketNumbering()`, the local reset (R206). -/
def State.resetPacketNumbering (s : State) : State :=
  let s := { s with opn := 1, lipn := 0 }
  let s := s.resetOutgoingMachine.resetIncomingMachine
  { s with pq := [], silMark := s.now }

/-- `por` sampled with time `t` (R270): every register of R20 takes its power-on value, no command is in progress; the
streams are not the block's and stay (log 14). -/
def State.powerOn (s : State) (t : Time) : State :=
  { s with
    opn := 1, lipn := 0
    ost := 0, obuf := State.reset.obuf, ocnt := 0, oretry := 0
    oreadMark := State.reset.oreadMark, oackMark := State.reset.oackMark
    ist := 0, ibuf := State.reset.ibuf, icnt := 0, irxMark := State.reset.irxMark
    pq := [], silMark := t, now := t, phase := .idle }

/-! ## The silence timer (R210) -/

/-- `silenceCheck()` (R210). -/
def State.silenceCheck (s : State) : State :=
  if s.expired s.silMark Config.silenceTimeoutMs then (s.emit .silenceReset).resetPacketNumbering else s

/-! ## The scheduler's count (R208, R209; log 6) -/

/-- The end of `runMachine(m)`: the incoming machine runs after the outgoing one, and the TICK ends with its response
after the incoming one. -/
def State.machineDone (s : State) : MachineId → State
  | .outgoing => { s with phase := .running .incoming 0 }
  | .incoming => { s with phase := .idle }.respond [statusDone]

/-- One transition of `m` returned progress, the count was `n` (R208): the cap is logged when the 17th has run. -/
def State.countProgress (s : State) (m : MachineId) (n : Nat) : State :=
  if n + 1 < Config.transitionCap then { s with phase := .running m (n + 1) }
  else (s.emit (.tooManyStateTransitions m)).machineDone m

/-- A transition of `m` returned progress: it is counted if a TICK is running `m` (R208). Outside that there is nothing
to count (log 20). -/
def State.afterProgress (s : State) (m : MachineId) : State :=
  match s.phase with
  | .idle => s
  | .running m' n => if m' = m then s.countProgress m n else s

/-- A transition of `m` returned no_progress: the loop of `m` ends if a TICK is running `m` (R208). -/
def State.afterNoProgress (s : State) (m : MachineId) : State :=
  match s.phase with
  | .idle => s
  | .running m' _ => if m' = m then s.machineDone m else s

/-- What `runMachine(m)` makes of one transition of machine `m` (R208). -/
def afterTransition (m : MachineId) : Transition → Host.Outcome State Fault Refusal
  | .progress s => .next (s.afterProgress m)
  | .noProgress s => .next (s.afterNoProgress m)
  | .fault r => .fault r

/-- Commands must not overlap (70_reset_and_hazards.md R274): a command runs only when none is in progress (log 13). -/
def whenIdle (s : State) (t : State) : Host.Outcome State Fault Refusal :=
  if s.phase = .idle then .next t else .refused .overlappingCommands

end Sys2Proof.Machine
end

