-- ==== Sys2Proof/Machine/Commands.lean ====
section
/-! DEFINITION. The meanings of the six commands (30_encoding.md R88). A command's bytes have left the command stream when
its meaning runs; a command runs only when none is in progress (70_reset_and_hazards.md R274, log 13). -/

namespace Sys2Proof.Machine

/-- Samples the time operand (00_scope.md R12: `now` is sampled for the current command). -/
def State.sample (s : State) (now : Time) : State := { s with now := now }

/-- What TICK does before the first transition (43_sequencing.md R209, part (a)): the silence check; then the outgoing
machine runs (log 6). -/
def State.beginTick (s : State) (now : Time) : State :=
  { (s.sample now).silenceCheck with phase := .running .outgoing 0 }

/-- SEND_RESET (R211): the local reset happens whether or not the RESET frame could be written. -/
def State.sendReset (s : State) (now : Time) : State :=
  if s.eoHasRoom then
    (((s.sample now).writeFrame resetFrame).resetPacketNumbering).respond [statusDone]
  else
    (((s.sample now).emit (.bufferFull .eo)).resetPacketNumbering).respond [statusNotWritten]

/-- TICK (R209): its transitions run in the steps that follow, with the collaborators acting between them (R71, log 6). -/
def execTick (now : Time) (s : State) : Host.Outcome State Fault Refusal :=
  whenIdle s (s.beginTick now)

/-- SEND_RESET (R211). -/
def execSendReset (now : Time) (s : State) : Host.Outcome State Fault Refusal :=
  whenIdle s (s.sendReset now)

/-- RESET_NUMBERING (R212). -/
def execResetNumbering (now : Time) (s : State) : Host.Outcome State Fault Refusal :=
  whenIdle s (((s.sample now).resetPacketNumbering).respond [statusDone])

/-- CRC16 (40_crc_codec.md R112). -/
def execCrc16 (bytes : List Byte) (s : State) : Host.Outcome State Fault Refusal :=
  whenIdle s (s.respond (crcResponse bytes))

/-- PREPARE (R115). -/
def execPrepare (type pn : Byte) (payload : List Byte) (s : State) : Host.Outcome State Fault Refusal :=
  whenIdle s (s.respond (prepareResponse type pn payload))

/-- VALIDATE (R117). -/
def execValidate (f : Frame) (s : State) : Host.Outcome State Fault Refusal :=
  whenIdle s (s.respond (verdictResponse (validate f)))

end Sys2Proof.Machine
end

