-- ==== Sys2Proof/Machine/Incoming.lean ====
section
/-! DEFINITION. The transitions of the incoming machine (42_incoming.md). Each is applied when IST holds its state, as the
dispatch selects it (30_encoding.md R91). -/

namespace Sys2Proof.Machine

/-- The values of IST (10_state.md R28). -/
abbrev istWaitForStartByte : BitVec 2 := 0
/-- READ_INCOMING_DATA (R28). -/
abbrev istReadIncomingData : BitVec 2 := 1
/-- PROCESS_INCOMING_DATA (R28). -/
abbrev istProcessIncomingData : BitVec 2 := 2

/-- WAIT_FOR_START_BYTE (R170): a byte that is not the start byte is discarded; the start byte stays at EI's head. -/
def inWaitStart (s : State) : Transition :=
  match s.ei.bytes with
  | [] => .noProgress s
  | b :: _ =>
    if b ≠ Config.startByte then .progress { s with ei := s.ei.dropOldest }
    else .progress { s with irxMark := s.now, icnt := 0, ist := istReadIncomingData }

/-- ICNT after `ICNT <- ICNT + 1` (R171). From 15 the sum does not fit its four bits and no rule states the value: a free
value (log 12). -/
def State.nextIcnt (s : State) : BitVec 4 :=
  if s.icnt.toNat < Config.frameLen then s.icnt + 1 else Config.freeIcnt s.freeCount

/-- The free values used when READ_INCOMING_DATA stores a byte: one where ICNT cannot hold the sum (log 12). -/
def State.nextFreeCount (s : State) : Nat :=
  if s.icnt.toNat < Config.frameLen then s.freeCount else s.freeCount + 1

/-- READ_INCOMING_DATA (R171): an available byte is read before the timer is examined. With ICNT = 15 IBUF has no byte to
store it in (10_state.md R29), so it is read and none of IBUF's bytes changes (log 12). -/
def inRead (s : State) : Transition :=
  match s.ei.bytes with
  | b :: _ =>
    .progress { s with
      ei := s.ei.dropOldest
      ibuf := s.ibuf.setIfInBounds s.icnt.toNat b
      icnt := s.nextIcnt
      ist := if s.nextIcnt.toNat = Config.frameLen then istProcessIncomingData else s.ist
      freeCount := s.nextFreeCount }
  | [] =>
    if s.expired s.irxMark Config.rxTimeoutMs = true then
      .progress { s with icnt := 0, ist := istWaitForStartByte }
    else .noProgress s

/-- The corrupt incoming state (R174): this machine alone is reset. -/
def inCorrupt (s : State) : Transition :=
  .progress (s.emit (.corruptState .incoming)).resetIncomingMachine

/-! ## Processing a frame (R172): decide, check the room, commit -/

/-- A valid DATA frame (R175): ACK(packetNumber) always, delivery only of a new number. -/
def dataAction (s : State) (f : Frame) : FrameAction where
  reply := some (ackFrame (framePn f))
  deliver := if s.isNew (framePn f) then some (deliveredBytes f) else none
  doReset := false
  enqueue := none
  invalid := none

/-- A valid RESET frame (R176): local reset and ACK(0), whatever its packetNumber. -/
def resetAction : FrameAction where
  reply := some (ackFrame 0)
  deliver := none
  doReset := true
  enqueue := none
  invalid := none

/-- A valid ACK frame (R173): queued if it is numbered OPN, else stale. -/
def ackAction (s : State) (f : Frame) : FrameAction where
  reply := none
  deliver := none
  doReset := false
  enqueue := if framePn f = s.opn then some ⟨.ack, framePn f, none⟩ else none
  invalid := none

/-- A valid NACK frame (R173): queued with its payload byte f[4] if it is numbered OPN, else stale. -/
def nackAction (s : State) (f : Frame) : FrameAction where
  reply := none
  deliver := none
  doReset := false
  enqueue := if framePn f = s.opn then some ⟨.nack, framePn f, some f[4]⟩ else none
  invalid := none

/-- A frame that fails validation (R177): NACK if its declared type is DATA, else no reply. -/
def invalidAction (f : Frame) (r : NackReason) : FrameAction where
  reply := if frameType f = Config.typeData then some (nackFrame (framePn f) r) else none
  deliver := none
  doReset := false
  enqueue := none
  invalid := some r

/-- Part 1 of R172: what the frame needs. -/
def frameAction (s : State) (f : Frame) : FrameAction :=
  match validate f with
  | none =>
    if frameType f = Config.typeData then dataAction s f
    else if frameType f = Config.typeReset then resetAction
    else if frameType f = Config.typeAck then ackAction s f
    else nackAction s f
  | some r => invalidAction f r

/-- Delivery (R172, part 3): the payload goes to PI and LIPN becomes the packet number. -/
def State.deliverPayload (s : State) (pn : Byte) (a : FrameAction) : State :=
  match a.deliver with
  | some bs => { s with pi := s.pi.write bs, lipn := pn }
  | none => s

/-- The event of a frame that fails validation, once, when the frame is processed (R177, R243; log 11). -/
def State.reportInvalid (s : State) (a : FrameAction) : State :=
  match a.invalid with
  | some r => s.emit (.invalidFrame r)
  | none => s

/-- The local reset of a RESET frame (R172, part 3). -/
def State.resetIfAsked (s : State) (a : FrameAction) : State :=
  if a.doReset then s.resetPacketNumbering else s

/-- Queueing (R172, part 3). -/
def State.enqueueResponse (s : State) (a : FrameAction) : State :=
  match a.enqueue with
  | some e => s.pqPush e
  | none => s

/-- The reply (R172, part 3). -/
def State.sendReply (s : State) (a : FrameAction) : State :=
  match a.reply with
  | some f => s.writeFrame f
  | none => s

/-- The end of every processed frame (R172, part 3): the silence timer restarts, the machine waits for a start byte. -/
def State.frameDone (s : State) : State :=
  { s with silMark := s.now, icnt := 0, ist := istWaitForStartByte }

/-- Part 3 of R172: commit. -/
def commitFrame (s : State) (pn : Byte) (a : FrameAction) : State :=
  (((((s.reportInvalid a).deliverPayload pn a).resetIfAsked a).enqueueResponse a).sendReply a).frameDone

/-- Part 2 of R172: whether a delivery lacks room. -/
def deliveryLacksRoom (s : State) (a : FrameAction) : Bool :=
  match a.deliver with
  | some bs => decide (s.pi.availableForWrite < bs.length)
  | none => false

/-- Parts 2 and 3 of R172: all or nothing; with no room the frame is held (R178). -/
def performFrame (s : State) (pn : Byte) (a : FrameAction) : Transition :=
  if a.reply.isSome = true ∧ s.eoHasRoom = false then .noProgress (s.emit (.bufferFull .eo))
  else if deliveryLacksRoom s a = true then .noProgress (s.emit (.bufferFull .pi))
  else .progress (commitFrame s pn a)

/-- PROCESS_INCOMING_DATA (R172) on the frame in IBUF. -/
def inProcess (s : State) : Transition := performFrame s (framePn s.ibuf) (frameAction s s.ibuf)

/-! ## The meanings of the incoming selectors -/

/-- IN_WAIT_FOR_START_BYTE (R170). -/
def execInWaitForStartByte (s : State) : Host.Outcome State Fault Refusal :=
  afterTransition .incoming (inWaitStart s)

/-- IN_READ_INCOMING_DATA (R171). -/
def execInReadIncomingData (s : State) : Host.Outcome State Fault Refusal :=
  afterTransition .incoming (inRead s)

/-- IN_PROCESS_INCOMING_DATA (R172). -/
def execInProcessIncomingData (s : State) : Host.Outcome State Fault Refusal :=
  afterTransition .incoming (inProcess s)

/-- IN_CORRUPT (R174). -/
def execInCorrupt (s : State) : Host.Outcome State Fault Refusal :=
  afterTransition .incoming (inCorrupt s)

end Sys2Proof.Machine
end

