-- ==== Sys2Proof/Machine/Frames.lean ====
section
/-! DEFINITION. The meanings of the four wire packet types: the receipt of one frame by PROCESS_INCOMING_DATA
(42_incoming.md R172, R173, R175 to R177; log 15). A frame that fails validation is treated as R177 says for its declared
type. -/

namespace Sys2Proof.Machine

/-- The action for a received frame of a known type: `valid` if it validates, else R177's. -/
def receivedAction (f : Frame) (valid : FrameAction) : FrameAction :=
  match validate f with
  | none => valid
  | some r => invalidAction f r

/-- DATA (R175). -/
def execData (pn len : Byte) (p : Payload) (crc : Word) (s : State) : Host.Outcome State Fault Refusal :=
  let f := frameOfFields Config.typeData pn len p crc
  afterTransition .incoming (performFrame s pn (receivedAction f (dataAction s f)))

/-- ACK (R173). -/
def execAck (pn len : Byte) (p : Payload) (crc : Word) (s : State) : Host.Outcome State Fault Refusal :=
  let f := frameOfFields Config.typeAck pn len p crc
  afterTransition .incoming (performFrame s pn (receivedAction f (ackAction s f)))

/-- NACK (R173). -/
def execNack (pn len : Byte) (p : Payload) (crc : Word) (s : State) : Host.Outcome State Fault Refusal :=
  let f := frameOfFields Config.typeNack pn len p crc
  afterTransition .incoming (performFrame s pn (receivedAction f (nackAction s f)))

/-- RESET (R176). -/
def execReset (pn len : Byte) (p : Payload) (crc : Word) (s : State) : Host.Outcome State Fault Refusal :=
  let f := frameOfFields Config.typeReset pn len p crc
  afterTransition .incoming (performFrame s pn (receivedAction f resetAction))

end Sys2Proof.Machine
end

