-- ==== Sys2Proof/Machine/Outgoing.lean ====
section
/-! DEFINITION. The transitions of the outgoing machine (41_outgoing.md). Each is applied when OST holds its state, as the
dispatch selects it (30_encoding.md R91). -/

namespace Sys2Proof.Machine

/-- The values of OST (10_state.md R23). -/
abbrev ostReadData : BitVec 2 := 0
/-- SEND_PACKAGE (R23). -/
abbrev ostSendPackage : BitVec 2 := 1
/-- WAIT_FOR_ACK_OR_NACK (R23). -/
abbrev ostWait : BitVec 2 := 2

/-- The bytes of the packet being collected or sent, `OBUF[0..OCNT-1]` (R24). -/
def State.outPayload (s : State) : List Byte := s.obuf.toList.take s.ocnt.toNat

/-- The DATA frame of the current packet (30_encoding.md R85, R141). -/
def State.dataFrame (s : State) : Frame := prepare Config.typeData s.opn s.outPayload

/-- The timer part of READ_DATA (R140): with a byte collected and 100 ms past, go to SEND_PACKAGE. -/
def readTimer (s : State) : Transition :=
  if 0 < s.ocnt.toNat ∧ s.expired s.oreadMark Config.readTimeoutMs = true then
    .progress { s with ost := ostSendPackage }
  else .noProgress s

/-- READ_DATA (R140): an available byte is drained before the timer is examined. -/
def outReadData (s : State) : Transition :=
  match s.po.bytes with
  | b :: _ =>
    if s.ocnt.toNat < Config.payloadMax then
      .progress { s with
        po := s.po.dropOldest
        oreadMark := if s.ocnt = 0 then s.now else s.oreadMark
        obuf := s.obuf.setIfInBounds s.ocnt.toNat b
        ocnt := s.ocnt + 1 }
    else readTimer s
  | [] => readTimer s

/-- SEND_PACKAGE (R141). OCNT above 8 is outside R37 (log 24). -/
def outSendPackage (s : State) : Transition :=
  if s.eoHasRoom = false then .noProgress (s.emit (.bufferFull .eo))
  else if Config.payloadMax < s.ocnt.toNat then .fault .ocntBeyondBuffer
  else .progress { s.writeFrame s.dataFrame with oackMark := s.now, ost := ostWait }

/-- `retryOrAbandon()` (R144): the comparison is made before the increment (90_conflicts.md C2). -/
def State.retryOrAbandon (s : State) : State :=
  if s.oretry.toNat < Config.maxRetryCount then
    { s with oretry := s.oretry + 1, ost := ostSendPackage }
  else
    { s.emit (.maxRetriesExceeded s.opn) with oretry := 0, ocnt := 0, ost := ostReadData }

/-- What a matching ACK does (R142). -/
def State.acknowledged (s : State) : State :=
  { s.advanceOPN with oretry := 0, ocnt := 0, ost := ostReadData }

/-- WAIT_FOR_ACK_OR_NACK (R142): a queued response is taken before the timer is examined; a stale entry is discarded. -/
def outWait (s : State) : Transition :=
  match s.pq with
  | m :: _ =>
    if m.kind = .ack ∧ m.pn = s.opn then .progress s.pqDropHead.acknowledged
    else if m.kind = .nack ∧ m.pn = s.opn then .progress s.pqDropHead.retryOrAbandon
    else .progress s.pqDropHead
  | [] =>
    if s.expired s.oackMark Config.ackTimeoutMs = true then .progress s.retryOrAbandon
    else .noProgress s

/-- The corrupt outgoing state (R143): this machine alone is reset. -/
def outCorrupt (s : State) : Transition :=
  .progress (s.emit (.corruptState .outgoing)).resetOutgoingMachine

/-! ## The meanings of the outgoing selectors -/

/-- OUT_READ_DATA (R140). -/
def execOutReadData (s : State) : Host.Outcome State Fault Refusal :=
  afterTransition .outgoing (outReadData s)

/-- OUT_SEND_PACKAGE (R141). -/
def execOutSendPackage (s : State) : Host.Outcome State Fault Refusal :=
  afterTransition .outgoing (outSendPackage s)

/-- OUT_WAIT_FOR_ACK_OR_NACK (R142). -/
def execOutWaitForAckOrNack (s : State) : Host.Outcome State Fault Refusal :=
  afterTransition .outgoing (outWait s)

/-- OUT_CORRUPT (R143). -/
def execOutCorrupt (s : State) : Host.Outcome State Fault Refusal :=
  afterTransition .outgoing (outCorrupt s)

end Sys2Proof.Machine
end

