-- ==== Sys2Proof/Machine/Dispatch.lean ====
section
/-! DEFINITION. The dispatch: one arm per instruction. -/

namespace Sys2Proof.Machine

/-- The meaning of an instruction. -/
def exec (i : Instr) (s : State) : Host.Outcome State Fault Refusal :=
  match i with
  | .data pn len p crc => Sys2Proof.Machine.execData pn len p crc s
  | .ack pn len p crc => Sys2Proof.Machine.execAck pn len p crc s
  | .nack pn len p crc => Sys2Proof.Machine.execNack pn len p crc s
  | .reset pn len p crc => Sys2Proof.Machine.execReset pn len p crc s
  | .tick now => Sys2Proof.Machine.execTick now s
  | .sendReset now => Sys2Proof.Machine.execSendReset now s
  | .resetNumbering now => Sys2Proof.Machine.execResetNumbering now s
  | .crc16 bytes => Sys2Proof.Machine.execCrc16 bytes s
  | .prepare type pn payload => Sys2Proof.Machine.execPrepare type pn payload s
  | .validate frame => Sys2Proof.Machine.execValidate frame s
  | .outReadData => Sys2Proof.Machine.execOutReadData s
  | .outSendPackage => Sys2Proof.Machine.execOutSendPackage s
  | .outWaitForAckOrNack => Sys2Proof.Machine.execOutWaitForAckOrNack s
  | .outCorrupt => Sys2Proof.Machine.execOutCorrupt s
  | .inWaitForStartByte => Sys2Proof.Machine.execInWaitForStartByte s
  | .inReadIncomingData => Sys2Proof.Machine.execInReadIncomingData s
  | .inProcessIncomingData => Sys2Proof.Machine.execInProcessIncomingData s
  | .inCorrupt => Sys2Proof.Machine.execInCorrupt s

end Sys2Proof.Machine
end

