-- ==== Sys2Proof/WellFormed.lean ====
section
/-! DEFINITION. Well-formed instructions. A frame is well-formed when it passes `validate` (the spec's own term,
00_scope.md R17); a command is well-formed when its operands fit their fields (30_encoding.md R88: n and len are one
byte); a selector always is. -/

namespace Sys2Proof

/-- The check for a frame of the given type: the per-type length rule (R82) and the CRC (R84). Its markers and its type
are right by construction. -/
abbrev FrameWellFormed (type pn len : Byte) (p : Payload) (crc : Word) : Prop :=
  Machine.lengthOk type len = true ∧ crc = Machine.frameCrc (Machine.frameOfFields type pn len p crc)

/-- An instruction that its encoding can carry and, for a frame, that `validate` accepts. -/
abbrev Instr.WellFormed (i : Instr) : Prop :=
  match i with
  | .data pn len p crc => FrameWellFormed Config.typeData pn len p crc
  | .ack pn len p crc => FrameWellFormed Config.typeAck pn len p crc
  | .nack pn len p crc => FrameWellFormed Config.typeNack pn len p crc
  | .reset pn len p crc => FrameWellFormed Config.typeReset pn len p crc
  | .tick _ => True
  | .sendReset _ => True
  | .resetNumbering _ => True
  | .crc16 bytes => bytes.length ≤ 255
  | .prepare _ _ payload => payload.length ≤ 255
  | .validate _ => True
  | .outReadData => True
  | .outSendPackage => True
  | .outWaitForAckOrNack => True
  | .outCorrupt => True
  | .inWaitForStartByte => True
  | .inReadIncomingData => True
  | .inProcessIncomingData => True
  | .inCorrupt => True

end Sys2Proof
end

