-- ==== Sys2Proof/Decode.lean ====
section
/-! DEFINITION. The decoder of each of the three formats (30_encoding.md R80, R88 to R91), total and refusing by name,
and the encoder. -/

namespace Sys2Proof

/-- Why a code is no instruction. -/
inductive DecodeError where
  /-- A frame whose byte 0 is not START_BYTE: a row of the table fixes it. -/
  | badStartByte
  /-- A frame whose byte 14 is not STOP_BYTE. -/
  | badStopByte
  /-- A frame whose type is none of the four packet types (R81). -/
  | notAPacketType (type : Byte)
  /-- A reserved command byte (R89). -/
  | reservedCommand (cmd : Byte)
  /-- A command without all its operand bytes. -/
  | incompleteCommand
  /-- Bytes after a command's last operand. -/
  | trailingBytes
deriving DecidableEq, Repr

/-- The answer of a decoder. -/
inductive Decoded where
  | instr (i : Instr)
  | error (e : DecodeError)
deriving DecidableEq, Repr

/-- The answer of the command decoder at the head of the command stream. -/
inductive CommandHead where
  /-- A whole command, and the bytes behind it. -/
  | complete (i : Instr) (rest : List Byte)
  /-- No byte, or a command whose operands have not all arrived. -/
  | incomplete
  /-- A reserved command byte, and the bytes behind it. -/
  | reserved (cmd : Byte) (rest : List Byte)
deriving DecidableEq, Repr

/-! ## Frames (R80, R81) -/

/-- The frame decoder: markers first, then the type (the order of 40_crc_codec.md R116). Length and CRC are operands; the
meaning checks them. -/
def decodeFrame (f : Frame) : Decoded :=
  if f[0] ≠ Config.startByte then .error .badStartByte
  else if f[14] ≠ Config.stopByte then .error .badStopByte
  else
    let pn := Machine.framePn f
    let len := Machine.frameLength f
    let p := Machine.framePayload f
    let crc := Machine.frameCrcField f
    if Machine.frameType f = Config.typeData then .instr (.data pn len p crc)
    else if Machine.frameType f = Config.typeAck then .instr (.ack pn len p crc)
    else if Machine.frameType f = Config.typeNack then .instr (.nack pn len p crc)
    else if Machine.frameType f = Config.typeReset then .instr (.reset pn len p crc)
    else .error (.notAPacketType (Machine.frameType f))

/-! ## Commands (R88, R90) -/

/-- The `now` operand at the head of the operand bytes (R90). -/
def takeTime : List Byte → Option (Time × List Byte)
  | b0 :: b1 :: b2 :: b3 :: rest => some (Machine.timeOfBytes b0 b1 b2 b3, rest)
  | _ => none

/-- The first `n` operand bytes, if they have all arrived. -/
def takeBytes (n : Nat) (bytes : List Byte) : Option (List Byte × List Byte) :=
  if n ≤ bytes.length then some (bytes.take n, bytes.drop n) else none

/-- The frame operand of VALIDATE: 15 bytes, first operand byte first (R90). -/
def takeFrame (bytes : List Byte) : Option (Frame × List Byte) :=
  if h : Config.frameLen ≤ bytes.length then
    some (⟨⟨bytes.take Config.frameLen⟩, by simpa using h⟩, bytes.drop Config.frameLen)
  else none

/-- A command made of the operands taken, or an incomplete one. -/
def commandOf {α : Type} (mk : α → Instr) : Option (α × List Byte) → CommandHead
  | some (x, rest) => .complete (mk x) rest
  | none => .incomplete

/-- The operands of CRC16: n, then n data bytes. -/
def takeCrcOperands : List Byte → Option (List Byte × List Byte)
  | n :: rest => takeBytes n.toNat rest
  | _ => none

/-- The operands of PREPARE: type, pn, len, then len payload bytes. -/
def takePrepareOperands : List Byte → Option ((Byte × Byte × List Byte) × List Byte)
  | type :: pn :: len :: rest => (takeBytes len.toNat rest).map fun pr => ((type, pn, pr.1), pr.2)
  | _ => none

/-- The command decoder (R88). Every byte value that is no command of R88's table is reserved (R89). -/
def decodeCommand : List Byte → CommandHead
  | [] => .incomplete
  | cmd :: ops =>
    if cmd = 0x01 then commandOf .tick (takeTime ops)
    else if cmd = 0x02 then commandOf .sendReset (takeTime ops)
    else if cmd = 0x03 then commandOf .resetNumbering (takeTime ops)
    else if cmd = 0x10 then commandOf .crc16 (takeCrcOperands ops)
    else if cmd = 0x11 then commandOf (fun o => .prepare o.1 o.2.1 o.2.2) (takePrepareOperands ops)
    else if cmd = 0x12 then commandOf .validate (takeFrame ops)
    else .reserved cmd ops

/-! ## Selectors (R91) -/

/-- The state dispatch (R91): bit 2 is the machine, bits 1 and 0 its state register. -/
def decodeSelector (v : BitVec 3) : Instr :=
  if v = 0b000 then .outReadData
  else if v = 0b001 then .outSendPackage
  else if v = 0b010 then .outWaitForAckOrNack
  else if v = 0b011 then .outCorrupt
  else if v = 0b100 then .inWaitForStartByte
  else if v = 0b101 then .inReadIncomingData
  else if v = 0b110 then .inProcessIncomingData
  else .inCorrupt

/-! ## All formats -/

/-- The instruction one code stands for, the whole of the code. -/
def decode : Code → Decoded
  | .frame f => decodeFrame f
  | .selector v => .instr (decodeSelector v)
  | .command bytes =>
    match decodeCommand bytes with
    | .complete i [] => .instr i
    | .complete _ (_ :: _) => .error .trailingBytes
    | .incomplete => .error .incompleteCommand
    | .reserved cmd _ => .error (.reservedCommand cmd)

/-- The encoder (R80, R88, R91). -/
def encode : Instr → Code
  | .data pn len p crc => .frame (Machine.frameOfFields Config.typeData pn len p crc)
  | .ack pn len p crc => .frame (Machine.frameOfFields Config.typeAck pn len p crc)
  | .nack pn len p crc => .frame (Machine.frameOfFields Config.typeNack pn len p crc)
  | .reset pn len p crc => .frame (Machine.frameOfFields Config.typeReset pn len p crc)
  | .tick now => .command (0x01 :: Machine.bytesOfTime now)
  | .sendReset now => .command (0x02 :: Machine.bytesOfTime now)
  | .resetNumbering now => .command (0x03 :: Machine.bytesOfTime now)
  | .crc16 bytes => .command (0x10 :: BitVec.ofNat 8 bytes.length :: bytes)
  | .prepare type pn payload => .command (0x11 :: type :: pn :: BitVec.ofNat 8 payload.length :: payload)
  | .validate frame => .command (0x12 :: frame.toList)
  | .outReadData => .selector 0b000
  | .outSendPackage => .selector 0b001
  | .outWaitForAckOrNack => .selector 0b010
  | .outCorrupt => .selector 0b011
  | .inWaitForStartByte => .selector 0b100
  | .inReadIncomingData => .selector 0b101
  | .inProcessIncomingData => .selector 0b110
  | .inCorrupt => .selector 0b111

/-! ## The host's table words -/

/-- Byte `k` of a table word: bits `8k+7..8k`; every bit from `nbits` on is 0. -/
def tableByte (nbits w k : Nat) : Byte := BitVec.ofNat 8 ((w % 2 ^ nbits) >>> (8 * k))

/-- The number of bytes of the command at the head of a table word (R88); one for a reserved command byte. -/
def tableCommandLength (nbits w : Nat) : Nat :=
  let cmd := tableByte nbits w 0
  if cmd = 0x01 ∨ cmd = 0x02 ∨ cmd = 0x03 then 5
  else if cmd = 0x10 then 2 + (tableByte nbits w 1).toNat
  else if cmd = 0x11 then 4 + (tableByte nbits w 3).toNat
  else if cmd = 0x12 then 16
  else 1

/-- Whether a table word is a selector: a word of fewer bits than a command byte, or a byte that no command begins with
(log 16). -/
def isSelectorWord (nbits w : Nat) : Bool :=
  decide (w % 2 ^ nbits < 8) && (decide (nbits < 8) || (decide (nbits = 8) && !decide (1 ≤ w % 256 ∧ w % 256 ≤ 3)))

/-- The code a table word stands for. The three formats share numbers, so the word itself must tell them apart (log 16):
a frame begins with START_BYTE, which no command does. -/
def tableCode (nbits w : Nat) : Code :=
  if isSelectorWord nbits w then .selector (BitVec.ofNat 3 w)
  else
    let b := tableByte nbits w
    if b 0 = Config.startByte then
      .frame #v[b 0, b 1, b 2, b 3, b 4, b 5, b 6, b 7, b 8, b 9, b 10, b 11, b 12, b 13, b 14]
    else .command ((List.range (tableCommandLength nbits w)).map b)

/-- The instruction the decoder reads from a table word. -/
def decodeTableWord (nbits w : Nat) : Option Instr :=
  match decode (tableCode nbits w) with
  | .instr i => some i
  | .error _ => none

end Sys2Proof
end

