-- ==== Sys2Proof/Machine/Fetch.lean ====
section
/-! DEFINITION. What the outside does at a step boundary, and which instruction comes next: inside a TICK the state
dispatch selects it (30_encoding.md R91), else it is the command at the head of the command stream (R88). -/

namespace Sys2Proof.Machine

/-! ## The agents outside (20_memory.md R69, R71) -/

/-- One action of an agent outside (log 7). -/
def State.applyInput (s : State) : Input → State
  | .command bs => { s with cmd := s.cmd ++ bs }
  | .por t => s.powerOn t
  | .producePO bs => { s with po := s.po.fill bs }
  | .deliverEI bs => { s with ei := s.ei.fill bs }
  | .drainEO n => { s with eo := s.eo.drain n }
  | .drainPI n => { s with pi := s.pi.drain n }

/-- The actions of one batch, in order. -/
def State.applyInputs (s : State) (batch : List Input) : State := batch.foldl State.applyInput s

/-- The actions due at this step boundary. -/
def State.takeInputs (s : State) : State :=
  ({ s with schedule := s.schedule.tail }).applyInputs (s.schedule.headD [])

/-! ## The next instruction -/

/-- The 3-bit selector of machine `m`: machine, then its state register (R91). -/
def State.selector (s : State) : MachineId → BitVec 3
  | .outgoing => (0 : BitVec 1) ++ s.ost
  | .incoming => (1 : BitVec 1) ++ s.ist

/-- What comes next. -/
inductive Fetched where
  /-- The instruction, and the state in which it runs: its bytes have left the command stream. -/
  | run (i : Instr) (s : State)
  /-- No instruction: the block waits, or has refused a reserved command. -/
  | wait (s : State)
deriving DecidableEq, Repr

/-- The next instruction. A reserved command is refused: response 0xFF, nothing else changes (R89; log 9). With no whole
command in the stream the block waits (60_exceptions.md R255; log 8). -/
def fetch (s : State) : Fetched :=
  match s.phase with
  | .running m _ => .run (decodeSelector (s.selector m)) s
  | .idle =>
    match decodeCommand s.cmd with
    | .complete i rest => .run i { s with cmd := rest }
    | .incomplete => .wait s
    | .reserved _ rest => .wait (({ s with cmd := rest }).respond [statusRefused])

/-! ## Placing a code where the next step fetches it -/

/-- The state in which the next step runs the given code: a command stands at the head of the command stream, a selector
is the running machine and its state register, a frame is in IBUF about to be processed. No outside action is due at
this step boundary. -/
def State.withCode (s : State) (c : Code) : State :=
  let s := { s with schedule := [] :: s.schedule }
  match c with
  | .command bytes => { s with phase := .idle, cmd := bytes ++ s.cmd }
  | .selector v =>
    if v.getLsbD 2 then { s with phase := .running .incoming 0, ist := v.extractLsb' 0 2 }
    else { s with phase := .running .outgoing 0, ost := v.extractLsb' 0 2 }
  | .frame f => { s with phase := .running .incoming 0, ist := 2, icnt := 15, ibuf := f }

end Sys2Proof.Machine
end

