-- ==== Sys2Proof/Machine/Step.lean ====
section
/-! DEFINITION. One step: the outside acts, then the next instruction runs (log 6). -/

namespace Sys2Proof.Machine

/-- One step of the machine. -/
def step (s : State) : Host.Outcome State Fault Refusal :=
  match fetch s.takeInputs with
  | .run i s' => exec i s'
  | .wait s' => .next s'

/-- `s` with the instruction of a table word placed where `step` fetches its next instruction (log 5, log 16). -/
def State.withFetchWord (s : State) (nbits w : Nat) : State := s.withCode (tableCode nbits w)

end Sys2Proof.Machine
end

