-- ==== Sys2Proof/Safety.lean ====
section
/-! DEFINITION. What counts as a safe state and a safe run, in the terms the statements use. -/

namespace Sys2Proof.Safety

open Sys2Proof.Machine

/-! ## Invariants (10_state.md R37) -/

/-- R37, the values of the registers. -/
abbrev RegistersLegal (s : State) : Prop :=
  (1 ≤ s.opn.toNat ∧ s.opn.toNat ≤ 255) ∧ s.ocnt.toNat ≤ 8 ∧ s.icnt.toNat ≤ 15 ∧
  (s.pqLen.toNat ≤ 4 ∧ s.pq.length ≤ 4) ∧ s.oretry.toNat ≤ Config.maxRetryCount ∧ s.ost ≠ 3 ∧ s.ist ≠ 3

/-- R37, the counts against the machine states. -/
abbrev CountsMatchStates (s : State) : Prop :=
  (s.ost = 1 ∨ s.ost = 2 → 1 ≤ s.ocnt.toNat) ∧ (s.ist = 2 → s.icnt = 15) ∧ (s.ist = 0 → s.icnt = 0)

/-- The invariants R37 lists, all of them. -/
abbrev R37 (s : State) : Prop := RegistersLegal s ∧ CountsMatchStates s

/-- READ_INCOMING_DATA has a byte left to read: the fifteenth byte changes the state (42_incoming.md R171). -/
abbrev ReceiveBufferHasRoom (s : State) : Prop := s.ist = 1 → s.icnt.toNat < Config.frameLen

/-- The frame being received begins with the start byte (42_incoming.md R179): it is at EI's head until it is read, and
IBUF[0] from then on. -/
abbrev StartByteSeen (s : State) : Prop :=
  (s.ist = 1 → s.icnt = 0 → s.ei.bytes.head? = some Config.startByte) ∧
  (s.ist = 1 ∨ s.ist = 2 → s.icnt ≠ 0 → s.ibuf[0] = Config.startByte)

/-- No stream holds more than its capacity (20_memory.md R60: each a bounded buffer). -/
abbrev StreamsBounded (s : State) : Prop :=
  s.po.bytes.length ≤ s.po.capacity ∧ s.eo.bytes.length ≤ s.eo.capacity ∧
  s.ei.bytes.length ≤ s.ei.capacity ∧ s.pi.bytes.length ≤ s.pi.capacity

/-- Only a NACK carries a reason (10_state.md R31). -/
abbrev ReasonsMatchKinds (s : State) : Prop := ∀ e ∈ s.pq, e.reason.isSome = true ↔ e.kind = .nack

/-- A machine of a TICK is left when its count reaches the cap (43_sequencing.md R208). -/
def PhaseLegal (s : State) : Prop := ∀ m n, s.phase = .running m n → n < Config.transitionCap

/-- The invariant of the whole machine. -/
structure Inv (s : State) : Prop where
  r37 : R37 s
  receive : ReceiveBufferHasRoom s
  start : StartByteSeen s
  streams : StreamsBounded s
  reasons : ReasonsMatchKinds s
  phase : PhaseLegal s

/-! ## TICK as 43_sequencing.md R207 to R210 write it -/

/-- One transition of machine `m` (R207): the rule its selector names (30_encoding.md R91). -/
def transition (m : MachineId) (s : State) : Transition :=
  match m with
  | .outgoing =>
    if s.ost = 0 then outReadData s
    else if s.ost = 1 then outSendPackage s
    else if s.ost = 2 then outWait s
    else Machine.outCorrupt s
  | .incoming =>
    if s.ist = 0 then inWaitStart s
    else if s.ist = 1 then inRead s
    else if s.ist = 2 then inProcess s
    else Machine.inCorrupt s

/-- The loop of `runMachine(m)` with `k` transitions left (R208): the cap is logged when none is left. -/
def runMachine (m : MachineId) : Nat → State → Host.Outcome State Fault Refusal
  | 0, s => .next (s.emit (.tooManyStateTransitions m))
  | k + 1, s =>
    match transition m s with
    | .progress s' => runMachine m k s'
    | .noProgress s' => .next s'
    | .fault r => .fault r

/-- The sequel of a computation that can stop. -/
def andThen (o : Host.Outcome State Fault Refusal) (k : State → Host.Outcome State Fault Refusal) :
    Host.Outcome State Fault Refusal :=
  match o with
  | .next s => k s
  | .fault r => .fault r
  | .refused r => .refused r

/-- `TICK(now)` from beginning to end, no collaborator acting inside (R209). -/
def tickWhole (now : Time) (s : State) : Host.Outcome State Fault Refusal :=
  andThen (runMachine .outgoing Config.transitionCap (s.sample now).silenceCheck) fun s =>
    andThen (runMachine .incoming Config.transitionCap s) fun s => .next (s.respond [statusDone])

/-! ## Agreement on what is defined (10_state.md R38) -/

/-- Two states that differ at most in contents no rule reads: OBUF beyond OCNT, IBUF beyond ICNT, OREAD_MARK while
OCNT = 0, OACK_MARK outside WAIT_FOR_ACK_OR_NACK, IRX_MARK outside READ_INCOMING_DATA (R38). -/
def AgreeOnDefined (s t : State) : Prop :=
  t = { s with obuf := t.obuf, ibuf := t.ibuf, oreadMark := t.oreadMark, oackMark := t.oackMark, irxMark := t.irxMark } ∧
  s.obuf.toList.take s.ocnt.toNat = t.obuf.toList.take s.ocnt.toNat ∧
  s.ibuf.toList.take s.icnt.toNat = t.ibuf.toList.take s.icnt.toNat ∧
  (s.ocnt ≠ 0 → s.oreadMark = t.oreadMark) ∧
  (s.ost = 2 → s.oackMark = t.oackMark) ∧
  (s.ist = 1 → s.irxMark = t.irxMark)

/-! ## The per-type length rule -/

/-- 30_encoding.md R82 in its own terms: DATA 0 to 8, ACK 0, NACK 1, RESET 0; no other type has a length. -/
abbrev LengthLegal (type len : Byte) : Prop :=
  (type = 0 ∧ len.toNat ≤ 8) ∨ (type = 1 ∧ len = 0) ∨ (type = 2 ∧ len = 1) ∨ (type = 3 ∧ len = 0)

/-! ## Damage and repeated transmission -/

/-- Frame `f` with bit `k % 8` of byte `k / 8` flipped (40_crc_codec.md R120: one of the 120 bits). -/
def flipBit (f : Frame) (k : Fin 120) : Frame :=
  f.set (k.val / 8) (f[k.val / 8]'(by have := k.isLt; simp only [Config.frameLen]; omega) ^^^ BitVec.twoPow 8 (k.val % 8))
    (by have := k.isLt; simp only [Config.frameLen]; omega)

/-- One transmission of a packet that is not acknowledged (41_outgoing.md R145), and what surrounds it: EO as it is when
the frame is written, the time then and at the next look, and the reason byte of the NACK that answers, if one does. -/
structure Attempt where
  eo : Port
  sendAt : Time
  lookAt : Time
  nack : Option Byte
deriving DecidableEq, Repr

/-- The response queue's gain from an attempt: the matching NACK, or nothing. -/
def Attempt.response (a : Attempt) (opn : Byte) : List PendingMessage :=
  match a.nack with
  | some r => [⟨.nack, opn, some r⟩]
  | none => []

/-- EO has room for the frame, and where no NACK answers the look is after the ACK timeout. -/
def Attempt.Unanswered (a : Attempt) : Prop :=
  Config.frameLen ≤ a.eo.availableForWrite ∧
  (a.nack = none → Config.ackTimeoutMs ≤ (a.lookAt - a.sendAt).toNat)

/-- SEND_PACKAGE, then the response if any, then WAIT_FOR_ACK_OR_NACK. It answers the bytes EO gained and the state. -/
def Attempt.run (a : Attempt) (s : State) : Option (List Byte × State) :=
  match exec .outSendPackage { s with eo := a.eo, now := a.sendAt } with
  | .next s1 =>
    match exec .outWaitForAckOrNack { s1 with now := a.lookAt, pq := s1.pq ++ a.response s1.opn } with
    | .next s2 => some (s1.eo.bytes.drop a.eo.bytes.length, s2)
    | _ => none
  | _ => none

/-- The attempts one after another: what EO gained at each, and the state after the last. -/
def runAttempts : List Attempt → State → Option (List (List Byte) × State)
  | [], s => some ([], s)
  | a :: as, s =>
    match a.run s with
    | some (bytes, s') =>
      match runAttempts as s' with
      | some (more, t) => some (bytes :: more, t)
      | none => none
    | none => none

end Sys2Proof.Safety
end

