-- ==== Sys2Proof/Certificates/Slice0/Obligations.lean ====
section
/-! DEFINITION. The statements for the provers. Each docstring names the rules of spec/ it formalises. Where a statement
uses `State.afterProgress` or `State.afterNoProgress`, that is the scheduler's count around the transition, whose whole
meaning is `Obligations.SchedulerCountsTransitions`. -/

open Sys2Proof Sys2Proof.Machine Sys2Proof.Safety

/-! ## Encoding -/

/-- Instructions written out byte by byte or bit by bit from R80, R88 and R91 decode to what they stand for. -/
def Obligations.WrittenWordsDecode : Prop :=
  decode (.frame #v[0xAA, 0x01, 0x00, 0x02, 0x41, 0x42, 0, 0, 0, 0, 0, 0, 0xC6, 0x2D, 0x55]) =
    .instr (.data 1 2 #v[0x41, 0x42, 0, 0, 0, 0, 0, 0] 0xC62D) ∧
  decode (.frame #v[0xAA, 0x01, 0x02, 0x01, 0x04, 0, 0, 0, 0, 0, 0, 0, 0x36, 0x82, 0x55]) =
    .instr (.nack 1 1 #v[0x04, 0, 0, 0, 0, 0, 0, 0] 0x3682) ∧
  decode (.command [0x01, 0x00, 0x00, 0x27, 0xB0]) = .instr (.tick 10160) ∧
  decode (.command [0x10, 0x02, 0x41, 0x42]) = .instr (.crc16 [0x41, 0x42]) ∧
  decode (.command [0x11, 0x02, 0x05, 0x01, 0x99]) = .instr (.prepare 2 5 [0x99]) ∧
  decode (.selector 0b010) = .instr .outWaitForAckOrNack ∧
  decode (.selector 0b101) = .instr .inReadIncomingData ∧
  decode (.command [0x13]) = .error (.reservedCommand 0x13)

/-- Decode and encode agree on every well-formed instruction, with every operand its encoding admits. -/
def Obligations.DecodeEncodeAgree : Prop :=
  ∀ i : Instr, i.WellFormed → decode (encode i) = .instr i

/-- The frame decoder answers an instruction exactly for the frames with both markers and a packet type (the fields of R80,
the types of R81), and what it answers encodes to that frame: no bit of a frame is dropped. That it checks the markers and
the type only, with any length and CRC as operands for the meaning to check, is the model's reading (log 15, DEDUCED). -/
def Obligations.DecodedFrameIsEncoded : Prop :=
  ∀ f : Frame,
    ((∃ i, decodeFrame f = .instr i) ↔ f[0] = 0xAA ∧ f[14] = 0x55 ∧ f[2].toNat ≤ 3) ∧
    (∀ i, decodeFrame f = .instr i → encode i = .frame f)

/-- A command the decoder takes from the command stream is well-formed, and the bytes taken are its encoding (R88, R90). -/
def Obligations.DecodedCommandIsEncodedHead : Prop :=
  ∀ (bs : List Byte) (i : Instr) (rest : List Byte), decodeCommand bs = .complete i rest →
    i.WellFormed ∧ ∃ bytes, encode i = .command bytes ∧ bs = bytes ++ rest

/-! ## A step runs the decoded instruction -/

/-- With no command in progress and a well-formed command's bytes at the head of the command stream, a step runs that
command; its bytes have left the stream. The outside acts first (`takeInputs`). -/
def Obligations.StepRunsDecodedCommand : Prop :=
  ∀ (s : State) (i : Instr) (bytes rest : List Byte),
    i.WellFormed → encode i = .command bytes →
    s.takeInputs.phase = .idle → s.takeInputs.cmd = bytes ++ rest →
    step s = exec i { s.takeInputs with cmd := rest }

/-- Inside a TICK, a step runs the transition that the running machine's state register selects (R91). -/
def Obligations.StepRunsSelectedTransition : Prop :=
  ∀ (s : State) (n : Nat),
    (s.takeInputs.phase = .running .outgoing n →
      (s.takeInputs.ost = 0 → step s = exec .outReadData s.takeInputs) ∧
      (s.takeInputs.ost = 1 → step s = exec .outSendPackage s.takeInputs) ∧
      (s.takeInputs.ost = 2 → step s = exec .outWaitForAckOrNack s.takeInputs) ∧
      (s.takeInputs.ost = 3 → step s = exec .outCorrupt s.takeInputs)) ∧
    (s.takeInputs.phase = .running .incoming n →
      (s.takeInputs.ist = 0 → step s = exec .inWaitForStartByte s.takeInputs) ∧
      (s.takeInputs.ist = 1 → step s = exec .inReadIncomingData s.takeInputs) ∧
      (s.takeInputs.ist = 2 → step s = exec .inProcessIncomingData s.takeInputs) ∧
      (s.takeInputs.ist = 3 → step s = exec .inCorrupt s.takeInputs))

/-- In PROCESS_INCOMING_DATA a step runs the frame instruction that IBUF decodes to (R172, R173, R175 to R177). -/
def Obligations.StepProcessesReceivedFrame : Prop :=
  ∀ (s : State) (n : Nat) (i : Instr),
    s.takeInputs.phase = .running .incoming n → s.takeInputs.ist = 2 →
    decodeFrame s.takeInputs.ibuf = .instr i → step s = exec i s.takeInputs

/-- R89: a reserved command is refused with 0xFF and nothing else changes (how many bytes leave the command stream is the
model's choice, log 9, and is not stated); PREPARE with a bad operand is refused the same way; no other operand value
is. -/
def Obligations.ReservedCommandsRefused : Prop :=
  (∀ (s : State) (c : Byte) (tail : List Byte),
    s.takeInputs.phase = .idle → s.takeInputs.cmd = c :: tail →
    c ≠ 0x01 → c ≠ 0x02 → c ≠ 0x03 → c ≠ 0x10 → c ≠ 0x11 → c ≠ 0x12 →
    ∃ rest, step s = .next { s.takeInputs with cmd := rest, resp := s.takeInputs.resp ++ [0xFF] }) ∧
  (∀ (s : State) (type pn : Byte) (payload : List Byte), s.phase = .idle →
    (3 < type.toNat ∨ 8 < payload.length →
      exec (.prepare type pn payload) s = .next { s with resp := s.resp ++ [0xFF] }) ∧
    (type.toNat ≤ 3 → payload.length ≤ 8 →
      ∃ t, exec (.prepare type pn payload) s = .next t ∧ t.resp ≠ s.resp ++ [0xFF])) ∧
  (∀ (s : State) (now : Time) (bytes : List Byte) (f : Frame), s.phase = .idle →
    ∀ i ∈ [Instr.tick now, .sendReset now, .resetNumbering now, .crc16 bytes, .validate f],
      ∃ t, exec i s = .next t ∧ t.resp ≠ s.resp ++ [0xFF])

/-- Between commands the block does nothing and holds its state (R255): with no command byte, a step changes only what the
outside changed. -/
def Obligations.IdleBlockHoldsItsState : Prop :=
  ∀ s : State, s.takeInputs.phase = .idle → s.takeInputs.cmd = [] → step s = .next s.takeInputs

/-- Commands must not overlap and the model refuses them (R274, U7; the model's choice, log 13): a command executed
while a TICK is in progress is refused by name. A step never refuses: it takes a command only when none is in progress. -/
def Obligations.OverlappingCommandsRefused : Prop :=
  (∀ (s : State) (now : Time) (bytes : List Byte) (type pn : Byte) (payload : List Byte) (f : Frame),
    s.phase ≠ .idle →
    ∀ i ∈ [Instr.tick now, .sendReset now, .resetNumbering now, .crc16 bytes, .prepare type pn payload, .validate f],
      exec i s = .refused .overlappingCommands) ∧
  (∀ (s : State) (r : Refusal), step s ≠ .refused r)

/-! ## CRC and codec -/

/-- R110 and R111 in plain arithmetic: a byte enters above the low eight bits, and eight times the value is doubled modulo
2^16, with the polynomial 0x1021 where it was 2^15 or more; a CRC starts at 0xFFFF and takes the bytes in order. -/
def Obligations.CrcIsComputedBitByBit : Prop :=
  (∀ (c : Word) (b : Byte),
    (crcStep c b).toNat =
      (fun n : Nat => if 32768 ≤ n then (2 * n % 65536) ^^^ 0x1021 else 2 * n)^[8] (c.toNat ^^^ (b.toNat * 256))) ∧
  crc16 [] = 0xFFFF ∧
  (∀ (bs : List Byte) (b : Byte), crc16 (bs ++ [b]) = crcStep (crc16 bs) b)

/-- A message followed by its own CRC, high byte first, has CRC zero: the CRC is the remainder of a division by the
polynomial, with no final XOR and no reflection (R110, R111, R63). -/
def Obligations.MessageWithItsCrcHasCrcZero : Prop :=
  ∀ m : List Byte, crc16 (m ++ [hiByte (crc16 m), loByte (crc16 m)]) = 0

/-- R114, byte by byte. -/
def Obligations.PrepareBuildsTheFrame : Prop :=
  ∀ (type pn : Byte) (p : List Byte), type.toNat ≤ 3 → p.length ≤ 8 →
    ∀ f : Frame, f = prepare type pn p →
      f[0] = 0xAA ∧ f[1] = pn ∧ f[2] = type ∧ f[3].toNat = p.length ∧
      f[4] = p.getD 0 0 ∧ f[5] = p.getD 1 0 ∧ f[6] = p.getD 2 0 ∧ f[7] = p.getD 3 0 ∧
      f[8] = p.getD 4 0 ∧ f[9] = p.getD 5 0 ∧ f[10] = p.getD 6 0 ∧ f[11] = p.getD 7 0 ∧
      f[12] = (crc16 [f[1], f[2], f[3], f[4], f[5], f[6], f[7], f[8], f[9], f[10], f[11]]).extractLsb' 8 8 ∧
      f[13] = (crc16 [f[1], f[2], f[3], f[4], f[5], f[6], f[7], f[8], f[9], f[10], f[11]]).extractLsb' 0 8 ∧
      f[14] = 0x55

/-- R119, both sentences. -/
def Obligations.ValidatePrepareRoundTrip : Prop :=
  ∀ (type pn : Byte) (p : List Byte), type.toNat ≤ 3 → p.length ≤ 8 →
    (lengthOk type (BitVec.ofNat 8 p.length) = true → validate (prepare type pn p) = none) ∧
    (lengthOk type (BitVec.ofNat 8 p.length) = false → validate (prepare type pn p) = some .invalidLength)

/-- R120: flipping any one of the 120 bits of an accepted frame is detected, with the reason the rule names. -/
def Obligations.SingleBitFlipIsRejected : Prop :=
  ∀ (f : Frame) (k : Fin 120), validate f = none →
    (k.val / 8 = 0 ∨ k.val / 8 = 14 → validate (flipBit f k) = some .invalidFraming) ∧
    (k.val / 8 = 2 → 2 ≤ k.val % 8 → validate (flipBit f k) = some .invalidType) ∧
    (k.val / 8 ≠ 0 → k.val / 8 ≠ 14 → ¬(k.val / 8 = 2 ∧ 2 ≤ k.val % 8) →
      validate (flipBit f k) = some .invalidLength ∨ validate (flipBit f k) = some .invalidCrc)

/-- The well-formed frames are the frames `validate` accepts (R17), whatever their pad bytes are (R83, R122). -/
def Obligations.WellFormedFramesValidate : Prop :=
  ∀ (type pn len : Byte) (p : Payload) (crc : Word), type.toNat ≤ 3 →
    (validate (frameOfFields type pn len p crc) = none ↔ FrameWellFormed type pn len p crc)

/-- R116: the checks run in the order markers, type, length, CRC, and the first that fails gives the result. The length
check is R82's, written out in `LengthLegal`. -/
def Obligations.ValidateReportsFirstFailure : Prop :=
  ∀ f : Frame,
    (validate f = some .invalidFraming ↔ f[0] ≠ 0xAA ∨ f[14] ≠ 0x55) ∧
    (validate f = some .invalidType ↔ f[0] = 0xAA ∧ f[14] = 0x55 ∧ 3 < f[2].toNat) ∧
    (validate f = some .invalidLength ↔
      f[0] = 0xAA ∧ f[14] = 0x55 ∧ f[2].toNat ≤ 3 ∧ ¬ LengthLegal f[2] f[3]) ∧
    (validate f = some .invalidCrc ↔
      f[0] = 0xAA ∧ f[14] = 0x55 ∧ f[2].toNat ≤ 3 ∧ LengthLegal f[2] f[3] ∧
      (crc16 [f[1], f[2], f[3], f[4], f[5], f[6], f[7], f[8], f[9], f[10], f[11]]).toNat ≠
        f[12].toNat * 256 + f[13].toNat) ∧
    (validate f = none ↔
      f[0] = 0xAA ∧ f[14] = 0x55 ∧ f[2].toNat ≤ 3 ∧ LengthLegal f[2] f[3] ∧
      (crc16 [f[1], f[2], f[3], f[4], f[5], f[6], f[7], f[8], f[9], f[10], f[11]]).toNat =
        f[12].toNat * 256 + f[13].toNat)

/-- `nackCode` is injective (R9, R241); nothing else is assumed of it. -/
def Obligations.NackCodeIsInjective : Prop :=
  ∀ r r' : NackReason, nackCode r = nackCode r' → r = r'

/-- R13: elapsed time is the difference modulo 2^32, and a timer has expired when it reaches the timeout. -/
def Obligations.ElapsedIsModular : Prop :=
  ∀ (s : State) (mark : Time) (timeout : Nat),
    s.elapsed mark = (s.now.toNat + 2 ^ 32 - mark.toNat) % 2 ^ 32 ∧
    (s.expired mark timeout = true ↔ timeout ≤ s.elapsed mark)

/-! ## The commands -/

/-- R112: CRC16 answers the CRC of its bytes, big-endian, and changes nothing else. -/
def Obligations.Crc16CommandResult : Prop :=
  ∀ (bytes : List Byte) (s : State), s.phase = .idle →
    exec (.crc16 bytes) s =
      .next { s with resp := s.resp ++ [(crc16 bytes).extractLsb' 8 8, (crc16 bytes).extractLsb' 0 8] }

/-- R115: PREPARE answers the frame, or 0xFF, and changes nothing else. -/
def Obligations.PrepareCommandResult : Prop :=
  ∀ (type pn : Byte) (payload : List Byte) (s : State), s.phase = .idle →
    (type.toNat ≤ 3 → payload.length ≤ 8 →
      exec (.prepare type pn payload) s = .next { s with resp := s.resp ++ (prepare type pn payload).toList }) ∧
    (3 < type.toNat ∨ 8 < payload.length →
      exec (.prepare type pn payload) s = .next { s with resp := s.resp ++ [0xFF] })

/-- R117: VALIDATE answers the verdict and the reason index, and changes nothing else. -/
def Obligations.ValidateCommandResult : Prop :=
  ∀ (f : Frame) (s : State), s.phase = .idle →
    (validate f = none → exec (.validate f) s = .next { s with resp := s.resp ++ [0x01, 0x00] }) ∧
    (validate f = some .invalidFraming → exec (.validate f) s = .next { s with resp := s.resp ++ [0x00, 0x01] }) ∧
    (validate f = some .invalidType → exec (.validate f) s = .next { s with resp := s.resp ++ [0x00, 0x02] }) ∧
    (validate f = some .invalidLength → exec (.validate f) s = .next { s with resp := s.resp ++ [0x00, 0x03] }) ∧
    (validate f = some .invalidCrc → exec (.validate f) s = .next { s with resp := s.resp ++ [0x00, 0x04] })

/-- R211 with R206: SEND_RESET writes the RESET frame if EO has 15 free bytes, and does the local reset in both cases. -/
def Obligations.SendResetCommandResult : Prop :=
  ∀ (now : Time) (s : State), s.phase = .idle →
    (15 ≤ s.eo.availableForWrite →
      exec (.sendReset now) s = .next { s with
        eo := ⟨s.eo.bytes ++ [0xAA, 0x00, 0x03, 0, 0, 0, 0, 0, 0, 0, 0, 0, 0x65, 0xC0, 0x55], s.eo.capacity⟩
        opn := 1, lipn := 0, ost := 0, ocnt := 0, oretry := 0, ist := 0, icnt := 0, pq := []
        silMark := now, now := now, resp := s.resp ++ [0x00] }) ∧
    (s.eo.availableForWrite < 15 →
      exec (.sendReset now) s = .next { s with
        diag := s.diag ++ [.bufferFull .eo]
        opn := 1, lipn := 0, ost := 0, ocnt := 0, oretry := 0, ist := 0, icnt := 0, pq := []
        silMark := now, now := now, resp := s.resp ++ [0x01] })

/-- R212 with R206: RESET_NUMBERING does the local reset and sends nothing. -/
def Obligations.ResetNumberingCommandResult : Prop :=
  ∀ (now : Time) (s : State), s.phase = .idle →
    exec (.resetNumbering now) s = .next { s with
      opn := 1, lipn := 0, ost := 0, ocnt := 0, oretry := 0, ist := 0, icnt := 0, pq := []
      silMark := now, now := now, resp := s.resp ++ [0x00] }

/-- TICK begins with the silence check (R209 part (a), R210) and then the outgoing machine runs; that its transitions are
the steps that follow is the model's reading (log 6), and `Obligations.TickRunsItsPseudocode` says what they come to. -/
def Obligations.TickBeginsWithSilenceCheck : Prop :=
  ∀ (now : Time) (s : State), s.phase = .idle →
    (10000 ≤ (now - s.silMark).toNat →
      exec (.tick now) s = .next { s with
        opn := 1, lipn := 0, ost := 0, ocnt := 0, oretry := 0, ist := 0, icnt := 0, pq := []
        silMark := now, now := now, diag := s.diag ++ [.silenceReset], phase := .running .outgoing 0 }) ∧
    ((now - s.silMark).toNat < 10000 →
      exec (.tick now) s = .next { s with now := now, phase := .running .outgoing 0 })

/-- TICK, run to its end with no outside action, is R209's pseudocode with R208's loops: silence check, up to 17 outgoing
transitions, up to 17 incoming ones, response 0x00. It takes at most 35 steps. -/
def Obligations.TickRunsItsPseudocode : Prop :=
  ∀ (s : State) (now : Time) (rest : List Byte),
    s.phase = .idle → s.schedule = [] → s.cmd = 0x01 :: (bytesOfTime now ++ rest) →
    ∃ k, k ≤ 35 ∧ Host.Core.run Sys2Proof.core k s = tickWhole now { s with cmd := rest }

/-- The scheduler's count (R208; that it stands in `phase` is the model's, log 6): progress counts up to the cap of 17,
which is logged; the end of the outgoing loop starts the incoming one, the end of the incoming loop ends the TICK with
response 0x00. Nothing else changes. -/
def Obligations.SchedulerCountsTransitions : Prop :=
  ∀ (s : State) (m m' : MachineId) (n : Nat),
    (s.phase = .idle → s.afterProgress m = s ∧ s.afterNoProgress m = s) ∧
    (s.phase = .running m' n → m' ≠ m → s.afterProgress m = s ∧ s.afterNoProgress m = s) ∧
    (s.phase = .running m n → n + 1 < 17 → s.afterProgress m = { s with phase := .running m (n + 1) }) ∧
    (s.phase = .running .outgoing n → 17 ≤ n + 1 →
      s.afterProgress .outgoing =
        { s with phase := .running .incoming 0, diag := s.diag ++ [.tooManyStateTransitions .outgoing] }) ∧
    (s.phase = .running .incoming n → 17 ≤ n + 1 →
      s.afterProgress .incoming =
        { s with phase := .idle, diag := s.diag ++ [.tooManyStateTransitions .incoming], resp := s.resp ++ [0x00] }) ∧
    (s.phase = .running .outgoing n → s.afterNoProgress .outgoing = { s with phase := .running .incoming 0 }) ∧
    (s.phase = .running .incoming n →
      s.afterNoProgress .incoming = { s with phase := .idle, resp := s.resp ++ [0x00] })

/-! ## The outgoing machine -/

/-- R140: READ_DATA drains a byte, or advances after 100 ms, or makes no progress. -/
def Obligations.ReadDataTransition : Prop :=
  ∀ s : State,
    (∀ b rest, s.po.bytes = b :: rest → s.ocnt.toNat < 8 →
      exec .outReadData s = .next (State.afterProgress { s with
        po := ⟨rest, s.po.capacity⟩
        oreadMark := if s.ocnt = 0 then s.now else s.oreadMark
        obuf := s.obuf.setIfInBounds s.ocnt.toNat b
        ocnt := s.ocnt + 1 } .outgoing)) ∧
    (s.po.bytes = [] ∨ 8 ≤ s.ocnt.toNat → 0 < s.ocnt.toNat → 100 ≤ (s.now - s.oreadMark).toNat →
      exec .outReadData s = .next (State.afterProgress { s with ost := 1 } .outgoing)) ∧
    (s.po.bytes = [] ∨ 8 ≤ s.ocnt.toNat → s.ocnt = 0 ∨ (s.now - s.oreadMark).toNat < 100 →
      exec .outReadData s = .next (s.afterNoProgress .outgoing))

/-- R141: SEND_PACKAGE writes the DATA frame numbered OPN with the collected bytes, or reports BufferFull(EO). -/
def Obligations.SendPackageTransition : Prop :=
  ∀ s : State,
    (s.eo.availableForWrite < 15 →
      exec .outSendPackage s =
        .next (State.afterNoProgress { s with diag := s.diag ++ [.bufferFull .eo] } .outgoing)) ∧
    (15 ≤ s.eo.availableForWrite → s.ocnt.toNat ≤ 8 →
      exec .outSendPackage s = .next (State.afterProgress { s with
        eo := ⟨s.eo.bytes ++ (prepare 0 s.opn (s.obuf.toList.take s.ocnt.toNat)).toList, s.eo.capacity⟩
        oackMark := s.now
        ost := 2 } .outgoing))

/-- R142 with R144, R200 and R203: WAIT_FOR_ACK_OR_NACK takes the oldest queued response, else looks at the timer. -/
def Obligations.WaitTransition : Prop :=
  ∀ s : State,
    (∀ reason rest, s.pq = ⟨.ack, s.opn, reason⟩ :: rest → s.opn ≠ 255 →
      exec .outWaitForAckOrNack s = .next (State.afterProgress { s with
        pq := rest, opn := s.opn + 1, oretry := 0, ocnt := 0, ost := 0 } .outgoing)) ∧
    (∀ reason rest, s.pq = ⟨.ack, s.opn, reason⟩ :: rest → s.opn = 255 →
      exec .outWaitForAckOrNack s = .next (State.afterProgress { s with
        pq := rest, opn := 1, lipn := 0, oretry := 0, ocnt := 0, ost := 0 } .outgoing)) ∧
    (∀ reason rest, s.pq = ⟨.nack, s.opn, reason⟩ :: rest → s.oretry.toNat < 5 →
      exec .outWaitForAckOrNack s = .next (State.afterProgress { s with
        pq := rest, oretry := s.oretry + 1, ost := 1 } .outgoing)) ∧
    (∀ reason rest, s.pq = ⟨.nack, s.opn, reason⟩ :: rest → 5 ≤ s.oretry.toNat →
      exec .outWaitForAckOrNack s = .next (State.afterProgress { s with
        pq := rest, oretry := 0, ocnt := 0, ost := 0
        diag := s.diag ++ [.maxRetriesExceeded s.opn] } .outgoing)) ∧
    (∀ e rest, s.pq = e :: rest → e.pn ≠ s.opn →
      exec .outWaitForAckOrNack s = .next (State.afterProgress { s with pq := rest } .outgoing)) ∧
    (s.pq = [] → 500 ≤ (s.now - s.oackMark).toNat → s.oretry.toNat < 5 →
      exec .outWaitForAckOrNack s = .next (State.afterProgress { s with
        oretry := s.oretry + 1, ost := 1 } .outgoing)) ∧
    (s.pq = [] → 500 ≤ (s.now - s.oackMark).toNat → 5 ≤ s.oretry.toNat →
      exec .outWaitForAckOrNack s = .next (State.afterProgress { s with
        oretry := 0, ocnt := 0, ost := 0, diag := s.diag ++ [.maxRetriesExceeded s.opn] } .outgoing)) ∧
    (s.pq = [] → (s.now - s.oackMark).toNat < 500 →
      exec .outWaitForAckOrNack s = .next (s.afterNoProgress .outgoing))

/-- R143: the corrupt outgoing state resets the outgoing machine alone. -/
def Obligations.CorruptOutgoingTransition : Prop :=
  ∀ s : State,
    exec .outCorrupt s = .next (State.afterProgress { s with
      diag := s.diag ++ [.corruptState .outgoing], ost := 0, ocnt := 0, oretry := 0 } .outgoing)

/-- Counts their buffers cannot take. SEND_PACKAGE with more bytes counted than OBUF has, which R37 excludes, faults (the
model's choice, log 24), and nothing else faults. READ_INCOMING_DATA with ICNT = 15, which R37 admits and no run reaches,
reads its byte; no byte of IBUF has that number, and ICNT is a free value, from which the test for the last byte is made
(the model's choice, log 12). -/
def Obligations.OutOfRangeCounts : Prop :=
  (∀ s : State, 15 ≤ s.eo.availableForWrite → 8 < s.ocnt.toNat → exec .outSendPackage s = .fault .ocntBeyondBuffer) ∧
  (∀ (i : Instr) (s : State) (r : Fault), exec i s = .fault r → i = .outSendPackage ∧ 8 < s.ocnt.toNat) ∧
  (∀ (s : State) (b : Byte) (rest : List Byte), s.ei.bytes = b :: rest → s.icnt = 15 →
    exec .inReadIncomingData s = .next (State.afterProgress { s with
      ei := ⟨rest, s.ei.capacity⟩
      icnt := Config.freeIcnt s.freeCount
      ist := if Config.freeIcnt s.freeCount = 15 then 2 else s.ist
      freeCount := s.freeCount + 1 } .incoming))

/-- R145: a packet whose transmissions are answered by a matching NACK or by nothing is written six times, each time the
identical DATA frame, and then abandoned with OPN unchanged. -/
def Obligations.RetryBoundIsSixIdenticalFrames : Prop :=
  ∀ (s : State) (attempts : List Attempt),
    s.ost = 1 → s.oretry = 0 → s.ocnt.toNat ≤ 8 → s.pq = [] →
    (∀ a ∈ attempts, a.Unanswered) → attempts.length ≤ 6 →
    ∃ t, runAttempts attempts s = some (List.replicate attempts.length s.dataFrame.toList, t) ∧
      t.opn = s.opn ∧ t.pq = [] ∧
      (attempts.length < 6 → t.ost = 1 ∧ t.oretry.toNat = attempts.length ∧ t.ocnt = s.ocnt) ∧
      (attempts.length = 6 → t.ost = 0 ∧ t.oretry = 0 ∧ t.ocnt = 0 ∧ .maxRetriesExceeded s.opn ∈ t.diag)

/-- OPN changes only when WAIT_FOR_ACK_OR_NACK takes a matching ACK, or on a local reset (R146, R272, R21). -/
def Obligations.OpnChangesOnlyOnAckOrReset : Prop :=
  ∀ s t : State, step s = .next t →
    t.opn = s.takeInputs.opn ∨
    ((∃ n, s.takeInputs.phase = .running .outgoing n) ∧ s.takeInputs.ost = 2 ∧
      (∃ reason, s.takeInputs.pq = ⟨.ack, s.takeInputs.opn, reason⟩ :: t.pq) ∧
      t.opn = (if s.takeInputs.opn = 255 then 1 else s.takeInputs.opn + 1) ∧ t.ost = 0 ∧ t.ocnt = 0) ∨
    (t.opn = 1 ∧ t.lipn = 0 ∧ t.ost = 0 ∧ t.ocnt = 0 ∧ t.oretry = 0 ∧ t.ist = 0 ∧ t.icnt = 0 ∧ t.pq = [] ∧
      t.silMark = t.now)

/-- R283: an ACK(OPN) queued before the DATA frame is written is taken as that frame's acknowledgement by the very next
transition, in the same TICK. -/
def Obligations.EarlyAckAcknowledgesAtOnce : Prop :=
  ∀ (s : State) (n : Nat) (reason : Option Byte) (rest : List PendingMessage),
    s.schedule = [] → s.phase = .running .outgoing n → n + 2 ≤ 17 →
    s.ost = 1 → s.ocnt.toNat ≤ 8 → 15 ≤ s.eo.availableForWrite → s.pq = ⟨.ack, s.opn, reason⟩ :: rest →
    ∃ t, Host.Core.run Sys2Proof.core 2 s = .next t ∧
      t.eo.bytes = s.eo.bytes ++ s.dataFrame.toList ∧
      t.opn = (if s.opn = 255 then 1 else s.opn + 1) ∧ t.ost = 0 ∧ t.ocnt = 0 ∧ t.pq = rest

/-! ## The incoming machine -/

/-- R170: WAIT_FOR_START_BYTE discards a byte that is not 0xAA, and leaves 0xAA at EI's head. -/
def Obligations.WaitForStartByteTransition : Prop :=
  ∀ s : State,
    (s.ei.bytes = [] → exec .inWaitForStartByte s = .next (s.afterNoProgress .incoming)) ∧
    (∀ b rest, s.ei.bytes = b :: rest → b ≠ 0xAA →
      exec .inWaitForStartByte s =
        .next (State.afterProgress { s with ei := ⟨rest, s.ei.capacity⟩ } .incoming)) ∧
    (∀ rest, s.ei.bytes = 0xAA :: rest →
      exec .inWaitForStartByte s =
        .next (State.afterProgress { s with irxMark := s.now, icnt := 0, ist := 1 } .incoming))

/-- R171: READ_INCOMING_DATA stores one byte, and processes after the fifteenth; with none it waits 500 ms. It is applied
when IST = 1 (R171's operand); a byte read with ICNT = 15, which no run reaches, is in `Obligations.OutOfRangeCounts`. -/
def Obligations.ReadIncomingTransition : Prop :=
  ∀ s : State, s.ist = 1 →
    (∀ b rest, s.ei.bytes = b :: rest → s.icnt.toNat < 14 →
      exec .inReadIncomingData s = .next (State.afterProgress { s with
        ei := ⟨rest, s.ei.capacity⟩, ibuf := s.ibuf.setIfInBounds s.icnt.toNat b
        icnt := s.icnt + 1 } .incoming)) ∧
    (∀ b rest, s.ei.bytes = b :: rest → s.icnt = 14 →
      exec .inReadIncomingData s = .next (State.afterProgress { s with
        ei := ⟨rest, s.ei.capacity⟩, ibuf := s.ibuf.setIfInBounds 14 b, icnt := 15, ist := 2 } .incoming)) ∧
    (s.ei.bytes = [] → 500 ≤ (s.now - s.irxMark).toNat →
      exec .inReadIncomingData s = .next (State.afterProgress { s with icnt := 0, ist := 0 } .incoming)) ∧
    (s.ei.bytes = [] → (s.now - s.irxMark).toNat < 500 →
      exec .inReadIncomingData s = .next (s.afterNoProgress .incoming))

/-- R174: the corrupt incoming state resets the incoming machine alone. -/
def Obligations.CorruptIncomingTransition : Prop :=
  ∀ s : State,
    exec .inCorrupt s = .next (State.afterProgress { s with
      diag := s.diag ++ [.corruptState .incoming], ist := 0, icnt := 0 } .incoming)

/-- R175: a valid DATA frame is delivered if its number is new, and acknowledged in both cases. -/
def Obligations.ValidDataReceipt : Prop :=
  ∀ (s : State) (pn len : Byte) (p : Payload) (crc : Word),
    (Instr.data pn len p crc).WellFormed → 15 ≤ s.eo.availableForWrite →
    (s.lipn.toNat < pn.toNat → len.toNat ≤ s.pi.availableForWrite →
      exec (.data pn len p crc) s = .next (State.afterProgress { s with
        pi := ⟨s.pi.bytes ++ p.toList.take len.toNat, s.pi.capacity⟩
        lipn := pn
        eo := ⟨s.eo.bytes ++ (prepare 1 pn []).toList, s.eo.capacity⟩
        silMark := s.now, icnt := 0, ist := 0 } .incoming)) ∧
    (pn.toNat ≤ s.lipn.toNat →
      exec (.data pn len p crc) s = .next (State.afterProgress { s with
        eo := ⟨s.eo.bytes ++ (prepare 1 pn []).toList, s.eo.capacity⟩
        silMark := s.now, icnt := 0, ist := 0 } .incoming))

/-- R173 with R202: a valid ACK or NACK numbered OPN is queued (the new entry is lost if four are queued), any other is
ignored; no reply is sent. -/
def Obligations.ValidAckOrNackReceipt : Prop :=
  ∀ (s : State) (pn len : Byte) (p : Payload) (crc : Word),
    ((Instr.ack pn len p crc).WellFormed →
      (pn = s.opn → s.pq.length < 4 →
        exec (.ack pn len p crc) s = .next (State.afterProgress { s with
          pq := s.pq ++ [⟨.ack, pn, none⟩], silMark := s.now, icnt := 0, ist := 0 } .incoming)) ∧
      (pn = s.opn → s.pq.length = 4 →
        exec (.ack pn len p crc) s = .next (State.afterProgress { s with
          diag := s.diag ++ [.queueOverflow .ack pn], silMark := s.now, icnt := 0, ist := 0 } .incoming)) ∧
      (pn ≠ s.opn →
        exec (.ack pn len p crc) s = .next (State.afterProgress { s with
          silMark := s.now, icnt := 0, ist := 0 } .incoming))) ∧
    ((Instr.nack pn len p crc).WellFormed →
      (pn = s.opn → s.pq.length < 4 →
        exec (.nack pn len p crc) s = .next (State.afterProgress { s with
          pq := s.pq ++ [⟨.nack, pn, some p[0]⟩], silMark := s.now, icnt := 0, ist := 0 } .incoming)) ∧
      (pn = s.opn → s.pq.length = 4 →
        exec (.nack pn len p crc) s = .next (State.afterProgress { s with
          diag := s.diag ++ [.queueOverflow .nack pn], silMark := s.now, icnt := 0, ist := 0 } .incoming)) ∧
      (pn ≠ s.opn →
        exec (.nack pn len p crc) s = .next (State.afterProgress { s with
          silMark := s.now, icnt := 0, ist := 0 } .incoming)))

/-- R176 with R206: a valid RESET, whatever its number, resets the block and is answered ACK(0). -/
def Obligations.ValidResetReceipt : Prop :=
  ∀ (s : State) (pn len : Byte) (p : Payload) (crc : Word),
    (Instr.reset pn len p crc).WellFormed → 15 ≤ s.eo.availableForWrite →
    exec (.reset pn len p crc) s = .next (State.afterProgress { s with
      opn := 1, lipn := 0, ost := 0, ocnt := 0, oretry := 0, ist := 0, icnt := 0, pq := [], silMark := s.now
      eo := ⟨s.eo.bytes ++ [0xAA, 0x00, 0x01, 0, 0, 0, 0, 0, 0, 0, 0, 0, 0xBB, 0x4A, 0x55], s.eo.capacity⟩ }
      .incoming)

/-- R177: a frame that fails validation is answered NACK(pn, reason) if it is declared DATA, and dropped if not; the event
is emitted and the silence timer restarts in both cases. The reason of a NACK is never InvalidType. -/
def Obligations.InvalidFrameReceipt : Prop :=
  (∀ (s : State) (r : NackReason), validate s.ibuf = some r → s.ibuf[2] = 0 → 15 ≤ s.eo.availableForWrite →
    r ≠ .invalidType ∧
    exec .inProcessIncomingData s = .next (State.afterProgress { s with
      diag := s.diag ++ [.invalidFrame r]
      eo := ⟨s.eo.bytes ++ (prepare 2 s.ibuf[1] [nackCode r]).toList, s.eo.capacity⟩
      silMark := s.now, icnt := 0, ist := 0 } .incoming)) ∧
  (∀ (s : State) (r : NackReason), validate s.ibuf = some r → s.ibuf[2] ≠ 0 →
    exec .inProcessIncomingData s = .next (State.afterProgress { s with
      diag := s.diag ++ [.invalidFrame r], silMark := s.now, icnt := 0, ist := 0 } .incoming))

/-- R178: with no room for a reply that is due, or for a delivery that is due, the frame is held: nothing changes but the
diagnostic output and the scheduler's count. Every frame declared DATA is due a reply, an ACK or a NACK (R175, R177), also
one with a wrong stop byte, which is no frame instruction and stands in IBUF. A held frame that fails validation emits
BufferFull alone and not InvalidFrame, which is the model's choice (log 11). -/
def Obligations.NoRoomHoldsTheFrame : Prop :=
  (∀ (s : State) (pn len : Byte) (p : Payload) (crc : Word),
    (s.eo.availableForWrite < 15 →
      exec (.data pn len p crc) s =
        .next (State.afterNoProgress { s with diag := s.diag ++ [.bufferFull .eo] } .incoming)) ∧
    ((Instr.reset pn len p crc).WellFormed → s.eo.availableForWrite < 15 →
      exec (.reset pn len p crc) s =
        .next (State.afterNoProgress { s with diag := s.diag ++ [.bufferFull .eo] } .incoming)) ∧
    ((Instr.data pn len p crc).WellFormed → 15 ≤ s.eo.availableForWrite → s.lipn.toNat < pn.toNat →
      s.pi.availableForWrite < len.toNat →
      exec (.data pn len p crc) s =
        .next (State.afterNoProgress { s with diag := s.diag ++ [.bufferFull .pi] } .incoming))) ∧
  (∀ (s : State) (r : NackReason), validate s.ibuf = some r → s.ibuf[2] = 0 → s.eo.availableForWrite < 15 →
    exec .inProcessIncomingData s =
      .next (State.afterNoProgress { s with diag := s.diag ++ [.bufferFull .eo] } .incoming))

/-- PROCESS_INCOMING_DATA does what the frame instruction in IBUF means, valid or not: R172's pseudocode and the rules
R173 and R175 to R177 of the four packet types agree. That a received frame is an instruction, with length and CRC as
operands, is the model's reading (log 15, DEDUCED). -/
def Obligations.ProcessingIsTheFrameInstruction : Prop :=
  ∀ (s : State) (i : Instr), decodeFrame s.ibuf = .instr i → exec .inProcessIncomingData s = exec i s

/-- PROCESS_INCOMING_DATA always answers a next state, and has its whole effect or none (R172). `a` is what the frame in IBUF
needs (part 1 of R172). With room for all of it, it is committed: EO gains the reply if one is due, PI gains the delivery if
one is due and LIPN rises with it, the packet numbering is reset if that is asked, the response is queued if there is one,
the machine waits for a start byte, and nothing else changes. With room lacking for any of it, nothing changes but one event and the scheduler's
count. That a held frame that fails validation emits no InvalidFrame is the model's choice (log 11). -/
def Obligations.ProcessingIsAllOrNothing : Prop :=
  ∀ (s : State) (a : FrameAction), a = frameAction s s.ibuf →
    ((a.reply.isSome = true → 15 ≤ s.eo.availableForWrite) →
      (∀ bs, a.deliver = some bs → bs.length ≤ s.pi.availableForWrite) →
      ∃ t, exec .inProcessIncomingData s = .next (State.afterProgress t .incoming) ∧
        t.eo = ⟨s.eo.bytes ++ (a.reply.map Vector.toList).getD [], s.eo.capacity⟩ ∧
        t.pi = ⟨s.pi.bytes ++ a.deliver.getD [], s.pi.capacity⟩ ∧
        t.ist = 0 ∧ t.icnt = 0 ∧ t.silMark = s.now ∧
        (a.doReset = true →
          t.opn = 1 ∧ t.lipn = 0 ∧ t.ost = 0 ∧ t.ocnt = 0 ∧ t.oretry = 0 ∧ t.pq = []) ∧
        (a.doReset = false →
          t.opn = s.opn ∧ t.lipn = (if a.deliver.isSome = true then s.ibuf[1] else s.lipn) ∧
          t.ost = s.ost ∧ t.ocnt = s.ocnt ∧ t.oretry = s.oretry ∧
          t.pq = (if s.pq.length < 4 then s.pq ++ a.enqueue.toList else s.pq)) ∧
        t.diag = s.diag ++ (a.invalid.map DiagEvent.invalidFrame).toList ++
          (if s.pq.length < 4 then [] else (a.enqueue.map fun e => DiagEvent.queueOverflow e.kind e.pn).toList) ∧
        t = { s with
          eo := t.eo, pi := t.pi, opn := t.opn, lipn := t.lipn, ost := t.ost, ocnt := t.ocnt, oretry := t.oretry
          ist := t.ist, icnt := t.icnt, pq := t.pq, silMark := t.silMark, diag := t.diag }) ∧
    (a.reply.isSome = true → s.eo.availableForWrite < 15 →
      exec .inProcessIncomingData s =
        .next (State.afterNoProgress { s with diag := s.diag ++ [.bufferFull .eo] } .incoming)) ∧
    (∀ bs, (a.reply.isSome = true → 15 ≤ s.eo.availableForWrite) → a.deliver = some bs →
      s.pi.availableForWrite < bs.length →
      exec .inProcessIncomingData s =
        .next (State.afterNoProgress { s with diag := s.diag ++ [.bufferFull .pi] } .incoming))

/-! ## The whole machine -/

/-- R37: every step keeps the invariants the rule lists, from every state that has them. -/
def Obligations.StepKeepsR37 : Prop :=
  ∀ s t : State, R37 s → step s = .next t → R37 t

/-- Every step keeps the whole invariant: R37, the start byte at the head of the frame being received (R179), streams
within their capacities (R60), reasons only on NACK entries (R31), the count below the cap (R208). -/
def Obligations.StepKeepsInvariant : Prop :=
  ∀ s t : State, Inv s → step s = .next t → Inv t

/-- The block never halts (R240): from every state that R37 admits, a step answers a next state. -/
def Obligations.StepNeverStops : Prop :=
  ∀ s : State, R37 s → ∃ t, step s = .next t

/-- The invariant holds at reset. -/
def Obligations.ResetMeetsInvariant : Prop := Inv State.reset

/-- Reset holds the power-on values of R270 (that `por` is sampled at time 0 is the model's choice, log 1). -/
def Obligations.ResetHoldsPowerOnValues : Prop :=
  State.reset.opn = 1 ∧ State.reset.lipn = 0 ∧ State.reset.ost = 0 ∧ State.reset.ocnt = 0 ∧ State.reset.oretry = 0 ∧
  State.reset.ist = 0 ∧ State.reset.icnt = 0 ∧ State.reset.pq = [] ∧ State.reset.pqLen = 0 ∧
  State.reset.silMark = 0 ∧ State.reset.phase = .idle

/-- `por` gives every register that R20 specifies its power-on value and leaves the streams (R270); that it may be sampled
at any step boundary and leaves no command in progress is the model's choice (log 14). -/
def Obligations.PowerOnResetsRegistersOnly : Prop :=
  ∀ (s : State) (t : Time) (rest : List (List Input)), s.schedule = [.por t] :: rest → s.cmd = [] →
    ∃ u, step s = .next u ∧
      u.opn = 1 ∧ u.lipn = 0 ∧ u.ost = 0 ∧ u.ocnt = 0 ∧ u.oretry = 0 ∧ u.ist = 0 ∧ u.icnt = 0 ∧
      u.pq = [] ∧ u.pqLen = 0 ∧ u.silMark = t ∧ u.phase = .idle ∧
      u.po = s.po ∧ u.eo = s.eo ∧ u.ei = s.ei ∧ u.pi = s.pi

/-- R271: the state after `por` at time t is the state after the local reset at time t, in every register a rule can
read. The model's own fields `now` and `phase` (logs 6, 14, 22), which are no registers, are as `por` leaves them. -/
def Obligations.PowerOnEqualsLocalReset : Prop :=
  ∀ (s : State) (t : Time),
    AgreeOnDefined (s.applyInput (.por t)) (State.resetPacketNumbering { s with now := t, phase := .idle })

/-- R38: contents that hold no defined value are never read. Two states that differ in nothing else step alike, and the
states they step to again differ in nothing else. So the values the model gives them at reset (log 2) cannot matter. Of the
invariants of R37, by which the rule argues, one clause is needed: a frame being processed is complete. -/
def Obligations.UnspecifiedContentsAreNeverRead : Prop :=
  ∀ s1 s2 : State, (s1.ist = 2 → s1.icnt = 15) → AgreeOnDefined s1 s2 →
    (∀ t1, step s1 = .next t1 → ∃ t2, step s2 = .next t2 ∧ AgreeOnDefined t1 t2) ∧
    (∀ r, step s1 = .fault r → step s2 = .fault r)

/-- R243: no rule reads `diag`. Whatever it holds, a step does the same and appends the same events. -/
def Obligations.DiagIsNeverRead : Prop :=
  ∀ (s : State) (d : List DiagEvent),
    (∀ t, step s = .next t →
      ∃ e, t.diag = s.diag ++ e ∧ step { s with diag := d } = .next { t with diag := d ++ e }) ∧
    (∀ r, step s = .fault r → step { s with diag := d } = .fault r)

/-- EO gains nothing or one whole frame, only where it has room for it (R66), and every frame the block writes passes
`validate` (R85, R114, R119). -/
def Obligations.EoGainsOnlyValidFrames : Prop :=
  ∀ s t : State, step s = .next t →
    t.eo.capacity = s.takeInputs.eo.capacity ∧
    (t.eo.bytes = s.takeInputs.eo.bytes ∨
      ∃ f : Frame, validate f = none ∧ t.eo.bytes = s.takeInputs.eo.bytes ++ f.toList ∧
        15 ≤ s.takeInputs.eo.availableForWrite)

/-- PI gains bytes only from a valid DATA frame with a number above LIPN, which becomes LIPN, and in the same step EO
gains its ACK (R175, R178, R215). -/
def Obligations.PiGainsOnlyNewPayloads : Prop :=
  ∀ s t : State, step s = .next t →
    t.pi.capacity = s.takeInputs.pi.capacity ∧
    (t.pi.bytes = s.takeInputs.pi.bytes ∨
      (s.takeInputs.ist = 2 ∧ validate s.takeInputs.ibuf = none ∧ s.takeInputs.ibuf[2] = 0 ∧
        s.takeInputs.lipn.toNat < s.takeInputs.ibuf[1].toNat ∧ t.lipn = s.takeInputs.ibuf[1] ∧
        t.pi.bytes = s.takeInputs.pi.bytes ++ deliveredBytes s.takeInputs.ibuf ∧
        (deliveredBytes s.takeInputs.ibuf).length = s.takeInputs.ibuf[3].toNat ∧
        (deliveredBytes s.takeInputs.ibuf).length ≤ s.takeInputs.pi.availableForWrite ∧
        t.eo.bytes = s.takeInputs.eo.bytes ++ (prepare 1 s.takeInputs.ibuf[1] []).toList))

/-- A step takes at most one byte from one input stream, from its head (R207, R66, R72). -/
def Obligations.StepReadsAtMostOneByte : Prop :=
  ∀ s t : State, step s = .next t →
    t.po.capacity = s.takeInputs.po.capacity ∧ t.ei.capacity = s.takeInputs.ei.capacity ∧
    ((t.po = s.takeInputs.po ∧ t.ei = s.takeInputs.ei) ∨
     (t.ei = s.takeInputs.ei ∧ ∃ b, s.takeInputs.po.bytes = b :: t.po.bytes) ∨
     (t.po = s.takeInputs.po ∧ ∃ b, s.takeInputs.ei.bytes = b :: t.ei.bytes))

/-- LIPN only increases (R22, 90_conflicts.md C4), by the number of the DATA frame being processed, but for a wrap of OPN,
which takes a matching ACK at 255 (R200), or a local reset with its whole result (R206). -/
def Obligations.LipnIncreasesBetweenResets : Prop :=
  ∀ s t : State, step s = .next t →
    t.lipn = s.takeInputs.lipn ∨
    (s.takeInputs.lipn.toNat < t.lipn.toNat ∧ (∃ n, s.takeInputs.phase = .running .incoming n) ∧
      s.takeInputs.ist = 2 ∧ t.lipn = s.takeInputs.ibuf[1] ∧ t.opn = s.takeInputs.opn) ∨
    ((∃ n, s.takeInputs.phase = .running .outgoing n) ∧ s.takeInputs.ost = 2 ∧ s.takeInputs.opn = 255 ∧
      (∃ reason, s.takeInputs.pq = ⟨.ack, 255, reason⟩ :: t.pq) ∧ t.opn = 1 ∧ t.lipn = 0 ∧ t.ost = 0 ∧ t.ocnt = 0) ∨
    (t.opn = 1 ∧ t.lipn = 0 ∧ t.ost = 0 ∧ t.ocnt = 0 ∧ t.oretry = 0 ∧ t.ist = 0 ∧ t.icnt = 0 ∧ t.pq = [] ∧
      t.silMark = t.now)

/-- A collaborator only adds bytes to an input stream or removes bytes from an output stream, at the stream's own end, and
the driver only adds command bytes; no capacity and no other part of the state changes (R71, R72). -/
def Obligations.OutsideMovesStreamsOneWay : Prop :=
  ∀ (s : State) (x : Input), (∀ t, x ≠ .por t) →
    s.applyInput x = { s with
      cmd := (s.applyInput x).cmd, po := (s.applyInput x).po, eo := (s.applyInput x).eo
      ei := (s.applyInput x).ei, pi := (s.applyInput x).pi } ∧
    s.cmd <+: (s.applyInput x).cmd ∧
    s.po.bytes <+: (s.applyInput x).po.bytes ∧ s.ei.bytes <+: (s.applyInput x).ei.bytes ∧
    (s.applyInput x).eo.bytes <:+ s.eo.bytes ∧ (s.applyInput x).pi.bytes <:+ s.pi.bytes ∧
    (s.applyInput x).po.capacity = s.po.capacity ∧ (s.applyInput x).eo.capacity = s.eo.capacity ∧
    (s.applyInput x).ei.capacity = s.ei.capacity ∧ (s.applyInput x).pi.capacity = s.pi.capacity

/-! ## The per-type length rule -/

/-- R82: the four types' lengths, and what any other length does. `LengthLegal` writes the rule out. -/
def Obligations.LengthRulePerType : Prop :=
  (∀ type len : Byte, lengthOk type len = true ↔ LengthLegal type len) ∧
  (∀ f : Frame, f[0] = 0xAA → f[14] = 0x55 → f[2].toNat ≤ 3 →
    (validate f = some .invalidLength ↔
      (f[2] = 0 ∧ 8 < f[3].toNat) ∨ (f[2] = 1 ∧ f[3] ≠ 0) ∨ (f[2] = 2 ∧ f[3] ≠ 1) ∨ (f[2] = 3 ∧ f[3] ≠ 0)))
end

