-- ==== Sys2Proof/Laws/Codec.lean ====
section
/-! SUPPORT. Small lemmas of byte order, frame fields, the CRC and the decoder's operand helpers. -/

namespace Sys2Proof.Machine

/-! ## Byte order -/

@[simp] theorem wordOfBytes_hi_lo (v : Word) : wordOfBytes (hiByte v) (loByte v) = v := by
  apply BitVec.eq_of_toNat_eq
  have := v.isLt
  simp only [wordOfBytes, hiByte, loByte, BitVec.toNat_ofNat, BitVec.extractLsb'_toNat, Nat.shiftRight_eq_div_pow]
  omega

@[simp] theorem hiByte_wordOfBytes (h l : Byte) : hiByte (wordOfBytes h l) = h := by
  apply BitVec.eq_of_toNat_eq
  have := h.isLt
  have := l.isLt
  simp only [wordOfBytes, hiByte, BitVec.toNat_ofNat, BitVec.extractLsb'_toNat, Nat.shiftRight_eq_div_pow]
  omega

@[simp] theorem loByte_wordOfBytes (h l : Byte) : loByte (wordOfBytes h l) = l := by
  apply BitVec.eq_of_toNat_eq
  have := h.isLt
  have := l.isLt
  simp only [wordOfBytes, loByte, BitVec.toNat_ofNat, BitVec.extractLsb'_toNat, Nat.shiftRight_eq_div_pow]
  omega

theorem timeOfBytes_bytesOfTime (t : Time) :
    timeOfBytes (t.extractLsb' 24 8) (t.extractLsb' 16 8) (t.extractLsb' 8 8) (t.extractLsb' 0 8) = t := by
  apply BitVec.eq_of_toNat_eq
  have := t.isLt
  simp only [timeOfBytes, Config.timeW, BitVec.toNat_ofNat, BitVec.extractLsb'_toNat, Nat.shiftRight_eq_div_pow] at *
  omega

/-- The value of an assembled time (R90). -/
theorem timeOfBytes_toNat (b0 b1 b2 b3 : Byte) :
    (timeOfBytes b0 b1 b2 b3).toNat = b0.toNat * 16777216 + b1.toNat * 65536 + b2.toNat * 256 + b3.toNat := by
  have h0 := b0.isLt
  have h1 := b1.isLt
  have h2 := b2.isLt
  have h3 := b3.isLt
  rw [timeOfBytes, BitVec.toNat_ofNat, Config.timeW, Nat.mod_eq_of_lt (by omega)]
  simp only [Nat.reducePow]

/-- A time's four bytes, from its value. -/
theorem bytesOfTime_of_toNat {b0 b1 b2 b3 : Byte} {t : Time}
    (ht : t.toNat = b0.toNat * 16777216 + b1.toNat * 65536 + b2.toNat * 256 + b3.toNat) :
    bytesOfTime t = [b0, b1, b2, b3] := by
  have h0 := b0.isLt
  have h1 := b1.isLt
  have h2 := b2.isLt
  have h3 := b3.isLt
  simp only [bytesOfTime, List.cons.injEq, and_true]
  refine ⟨?_, ?_, ?_, ?_⟩ <;> apply BitVec.eq_of_toNat_eq <;>
    simp only [BitVec.extractLsb'_toNat, Nat.shiftRight_eq_div_pow] <;> omega

/-- The four bytes of an assembled time are the bytes it was assembled from. -/
theorem bytesOfTime_timeOfBytes (b0 b1 b2 b3 : Byte) :
    bytesOfTime (timeOfBytes b0 b1 b2 b3) = [b0, b1, b2, b3] :=
  bytesOfTime_of_toNat (timeOfBytes_toNat b0 b1 b2 b3)

/-! ## Frame fields -/

section
variable (type pn len : Byte) (p : Payload) (crc : Word)

@[simp] theorem frameOfFields_start : (frameOfFields type pn len p crc)[0] = Config.startByte := rfl
@[simp] theorem frameOfFields_stop : (frameOfFields type pn len p crc)[14] = Config.stopByte := rfl
@[simp] theorem framePn_frameOfFields : framePn (frameOfFields type pn len p crc) = pn := rfl
@[simp] theorem frameType_frameOfFields : frameType (frameOfFields type pn len p crc) = type := rfl
@[simp] theorem frameLength_frameOfFields : frameLength (frameOfFields type pn len p crc) = len := rfl

theorem payload_ext {p q : Payload} (h : ∀ i, (hi : i < Config.payloadMax) → p[i] = q[i]) : p = q :=
  Vector.ext h

@[simp] theorem framePayload_frameOfFields : framePayload (frameOfFields type pn len p crc) = p := by
  refine Vector.ext fun i hi => ?_
  have : i = 0 ∨ i = 1 ∨ i = 2 ∨ i = 3 ∨ i = 4 ∨ i = 5 ∨ i = 6 ∨ i = 7 := by
    simp only [Config.payloadMax] at hi; omega
  rcases this with rfl | rfl | rfl | rfl | rfl | rfl | rfl | rfl <;> rfl

@[simp] theorem frameCrcField_frameOfFields : frameCrcField (frameOfFields type pn len p crc) = crc :=
  wordOfBytes_hi_lo crc

theorem crcScope_frameOfFields :
    crcScope (frameOfFields type pn len p crc) =
      [pn, type, len, p[0], p[1], p[2], p[3], p[4], p[5], p[6], p[7]] := rfl

/-- The CRC field lies outside the CRC's scope. -/
theorem frameCrc_ignores_crc (crc' : Word) :
    frameCrc (frameOfFields type pn len p crc) = frameCrc (frameOfFields type pn len p crc') := rfl

end

/-- A frame with both markers is the frame of its own fields. -/
theorem frameOfFields_eta (f : Frame) (h0 : f[0] = Config.startByte) (h14 : f[14] = Config.stopByte) :
    frameOfFields (frameType f) (framePn f) (frameLength f) (framePayload f) (frameCrcField f) = f := by
  refine Vector.ext fun i hi => ?_
  have : i = 0 ∨ i = 1 ∨ i = 2 ∨ i = 3 ∨ i = 4 ∨ i = 5 ∨ i = 6 ∨ i = 7 ∨ i = 8 ∨ i = 9 ∨ i = 10 ∨ i = 11 ∨
      i = 12 ∨ i = 13 ∨ i = 14 := by
    simp only [Config.frameLen] at hi; omega
  rcases this with rfl | rfl | rfl | rfl | rfl | rfl | rfl | rfl | rfl | rfl | rfl | rfl | rfl | rfl | rfl
  · exact h0.symm
  iterate 11 · rfl
  · exact hiByte_wordOfBytes _ _
  · exact loByte_wordOfBytes _ _
  · exact h14.symm

/-! ## The CRC -/

@[simp] theorem crcInput_eq (b : Byte) : crcInput b = b := rfl

@[simp] theorem crcOutput_eq (c : Word) : crcOutput c = c := BitVec.xor_zero

/-- With R9's parameters the CRC is the plain fold of the byte step. -/
theorem crc16_eq_foldl (bytes : List Byte) : crc16 bytes = bytes.foldl crcStep Config.crcInit := by
  rw [crc16, crcOutput_eq, show crcInput = id from rfl, List.map_id]

@[simp] theorem crc16_nil : crc16 [] = Config.crcInit := crc16_eq_foldl []

theorem crc16_append (as bs : List Byte) : crc16 (as ++ bs) = bs.foldl crcStep (crc16 as) := by
  simp only [crc16_eq_foldl, List.foldl_append]

/-- `prepare` is the frame of its fields with the frame CRC. -/
theorem prepare_eq (type pn : Byte) (p : List Byte) :
    prepare type pn p =
      frameOfFields type pn (BitVec.ofNat 8 p.length) (padPayload p)
        (crc16 [pn, type, BitVec.ofNat 8 p.length, p.getD 0 0, p.getD 1 0, p.getD 2 0, p.getD 3 0,
          p.getD 4 0, p.getD 5 0, p.getD 6 0, p.getD 7 0]) := rfl

/-! ## `validate`, all it can answer -/

theorem validate_none {f : Frame} (h : validate f = none) :
    f[0] = Config.startByte ∧ f[14] = Config.stopByte ∧ (frameType f).toNat ≤ 3 ∧
      lengthOk (frameType f) (frameLength f) = true ∧ frameCrc f = frameCrcField f := by
  unfold validate at h
  split at h
  · cases h
  · split at h
    · cases h
    · split at h
      · cases h
      · split at h
        · cases h
        · rename_i h1 h2 h3 h4
          simp only [not_or, not_not] at h1
          exact ⟨h1.1, h1.2, by omega, by simpa using h3, by simpa using h4⟩

/-- A type up to 3 is one of the four packet types. -/
theorem packetType_cases {t : Byte} (h : t.toNat ≤ 3) :
    t = Config.typeData ∨ t = Config.typeAck ∨ t = Config.typeNack ∨ t = Config.typeReset := by
  have : t.toNat = 0 ∨ t.toNat = 1 ∨ t.toNat = 2 ∨ t.toNat = 3 := by omega
  rcases this with h | h | h | h
  · exact .inl (BitVec.eq_of_toNat_eq h)
  · exact .inr (.inl (BitVec.eq_of_toNat_eq h))
  · exact .inr (.inr (.inl (BitVec.eq_of_toNat_eq h)))
  · exact .inr (.inr (.inr (BitVec.eq_of_toNat_eq h)))

end Sys2Proof.Machine

namespace Sys2Proof

/-! ## Operand helpers of the decoder -/

theorem takeBytes_append (as bs : List Byte) : takeBytes as.length (as ++ bs) = some (as, bs) := by
  simp [takeBytes]

/-- All `takeBytes` can answer. -/
theorem takeBytes_some {n : Nat} {l as bs : List Byte} (h : takeBytes n l = some (as, bs)) :
    l = as ++ bs ∧ as.length = n := by
  unfold takeBytes at h
  split at h
  · simp only [Option.some.injEq, Prod.mk.injEq] at h
    obtain ⟨rfl, rfl⟩ := h
    exact ⟨by simp, by simp; omega⟩
  · cases h

theorem takeTime_append (t : Time) (rest : List Byte) :
    takeTime (Machine.bytesOfTime t ++ rest) = some (t, rest) := by
  simp [Machine.bytesOfTime, takeTime, Machine.timeOfBytes_bytesOfTime]

theorem takeFrame_append (f : Frame) (rest : List Byte) :
    takeFrame (f.toList ++ rest) = some (f, rest) := by
  have hl : f.toList.length = Config.frameLen := f.length_toList
  have ht : (f.toList ++ rest).take Config.frameLen = f.toList := List.take_left' hl
  have hd : (f.toList ++ rest).drop Config.frameLen = rest := List.drop_left' hl
  unfold takeFrame
  rw [dif_pos (by rw [List.length_append, hl]; omega)]
  simp only [hd, Option.some.injEq, Prod.mk.injEq, and_true]
  apply Vector.toList_inj.mp
  simpa only [Vector.toList] using ht

/-- All `commandOf` can answer with a whole command. -/
theorem commandOf_complete {α : Type} {mk : α → Instr} {o : Option (α × List Byte)} {i : Instr} {rest : List Byte}
    (h : commandOf mk o = .complete i rest) : ∃ x, o = some (x, rest) ∧ i = mk x := by
  cases o with
  | none => simp [commandOf] at h
  | some p =>
    simp only [commandOf, CommandHead.complete.injEq] at h
    exact ⟨p.1, by rw [← h.2], h.1.symm⟩

end Sys2Proof
end

