-- ==== Sys2Proof/Laws/State.lean ====
section
/-! SUPPORT. What each plain update of the state does to each field, one lemma per field per update. -/

namespace Sys2Proof.Machine

section
variable (s : State)

@[simp] theorem State.emit_opn (e : DiagEvent) : (s.emit e).opn = s.opn := rfl
@[simp] theorem State.emit_lipn (e : DiagEvent) : (s.emit e).lipn = s.lipn := rfl
@[simp] theorem State.emit_ost (e : DiagEvent) : (s.emit e).ost = s.ost := rfl
@[simp] theorem State.emit_obuf (e : DiagEvent) : (s.emit e).obuf = s.obuf := rfl
@[simp] theorem State.emit_ocnt (e : DiagEvent) : (s.emit e).ocnt = s.ocnt := rfl
@[simp] theorem State.emit_oretry (e : DiagEvent) : (s.emit e).oretry = s.oretry := rfl
@[simp] theorem State.emit_oreadMark (e : DiagEvent) : (s.emit e).oreadMark = s.oreadMark := rfl
@[simp] theorem State.emit_oackMark (e : DiagEvent) : (s.emit e).oackMark = s.oackMark := rfl
@[simp] theorem State.emit_ist (e : DiagEvent) : (s.emit e).ist = s.ist := rfl
@[simp] theorem State.emit_ibuf (e : DiagEvent) : (s.emit e).ibuf = s.ibuf := rfl
@[simp] theorem State.emit_icnt (e : DiagEvent) : (s.emit e).icnt = s.icnt := rfl
@[simp] theorem State.emit_irxMark (e : DiagEvent) : (s.emit e).irxMark = s.irxMark := rfl
@[simp] theorem State.emit_pq (e : DiagEvent) : (s.emit e).pq = s.pq := rfl
@[simp] theorem State.emit_silMark (e : DiagEvent) : (s.emit e).silMark = s.silMark := rfl
@[simp] theorem State.emit_now (e : DiagEvent) : (s.emit e).now = s.now := rfl
@[simp] theorem State.emit_phase (e : DiagEvent) : (s.emit e).phase = s.phase := rfl
@[simp] theorem State.emit_po (e : DiagEvent) : (s.emit e).po = s.po := rfl
@[simp] theorem State.emit_eo (e : DiagEvent) : (s.emit e).eo = s.eo := rfl
@[simp] theorem State.emit_ei (e : DiagEvent) : (s.emit e).ei = s.ei := rfl
@[simp] theorem State.emit_pi (e : DiagEvent) : (s.emit e).pi = s.pi := rfl
@[simp] theorem State.emit_cmd (e : DiagEvent) : (s.emit e).cmd = s.cmd := rfl
@[simp] theorem State.emit_resp (e : DiagEvent) : (s.emit e).resp = s.resp := rfl
@[simp] theorem State.emit_diag (e : DiagEvent) : (s.emit e).diag = s.diag ++ [e] := rfl
@[simp] theorem State.emit_schedule (e : DiagEvent) : (s.emit e).schedule = s.schedule := rfl
@[simp] theorem State.emit_freeCount (e : DiagEvent) : (s.emit e).freeCount = s.freeCount := rfl

@[simp] theorem State.respond_opn (bs : List Byte) : (s.respond bs).opn = s.opn := rfl
@[simp] theorem State.respond_lipn (bs : List Byte) : (s.respond bs).lipn = s.lipn := rfl
@[simp] theorem State.respond_ost (bs : List Byte) : (s.respond bs).ost = s.ost := rfl
@[simp] theorem State.respond_obuf (bs : List Byte) : (s.respond bs).obuf = s.obuf := rfl
@[simp] theorem State.respond_ocnt (bs : List Byte) : (s.respond bs).ocnt = s.ocnt := rfl
@[simp] theorem State.respond_oretry (bs : List Byte) : (s.respond bs).oretry = s.oretry := rfl
@[simp] theorem State.respond_oreadMark (bs : List Byte) : (s.respond bs).oreadMark = s.oreadMark := rfl
@[simp] theorem State.respond_oackMark (bs : List Byte) : (s.respond bs).oackMark = s.oackMark := rfl
@[simp] theorem State.respond_ist (bs : List Byte) : (s.respond bs).ist = s.ist := rfl
@[simp] theorem State.respond_ibuf (bs : List Byte) : (s.respond bs).ibuf = s.ibuf := rfl
@[simp] theorem State.respond_icnt (bs : List Byte) : (s.respond bs).icnt = s.icnt := rfl
@[simp] theorem State.respond_irxMark (bs : List Byte) : (s.respond bs).irxMark = s.irxMark := rfl
@[simp] theorem State.respond_pq (bs : List Byte) : (s.respond bs).pq = s.pq := rfl
@[simp] theorem State.respond_silMark (bs : List Byte) : (s.respond bs).silMark = s.silMark := rfl
@[simp] theorem State.respond_now (bs : List Byte) : (s.respond bs).now = s.now := rfl
@[simp] theorem State.respond_phase (bs : List Byte) : (s.respond bs).phase = s.phase := rfl
@[simp] theorem State.respond_po (bs : List Byte) : (s.respond bs).po = s.po := rfl
@[simp] theorem State.respond_eo (bs : List Byte) : (s.respond bs).eo = s.eo := rfl
@[simp] theorem State.respond_ei (bs : List Byte) : (s.respond bs).ei = s.ei := rfl
@[simp] theorem State.respond_pi (bs : List Byte) : (s.respond bs).pi = s.pi := rfl
@[simp] theorem State.respond_cmd (bs : List Byte) : (s.respond bs).cmd = s.cmd := rfl
@[simp] theorem State.respond_resp (bs : List Byte) : (s.respond bs).resp = s.resp ++ bs := rfl
@[simp] theorem State.respond_diag (bs : List Byte) : (s.respond bs).diag = s.diag := rfl
@[simp] theorem State.respond_schedule (bs : List Byte) : (s.respond bs).schedule = s.schedule := rfl
@[simp] theorem State.respond_freeCount (bs : List Byte) : (s.respond bs).freeCount = s.freeCount := rfl

@[simp] theorem State.writeFrame_opn (f : Frame) : (s.writeFrame f).opn = s.opn := rfl
@[simp] theorem State.writeFrame_lipn (f : Frame) : (s.writeFrame f).lipn = s.lipn := rfl
@[simp] theorem State.writeFrame_ost (f : Frame) : (s.writeFrame f).ost = s.ost := rfl
@[simp] theorem State.writeFrame_obuf (f : Frame) : (s.writeFrame f).obuf = s.obuf := rfl
@[simp] theorem State.writeFrame_ocnt (f : Frame) : (s.writeFrame f).ocnt = s.ocnt := rfl
@[simp] theorem State.writeFrame_oretry (f : Frame) : (s.writeFrame f).oretry = s.oretry := rfl
@[simp] theorem State.writeFrame_oreadMark (f : Frame) : (s.writeFrame f).oreadMark = s.oreadMark := rfl
@[simp] theorem State.writeFrame_oackMark (f : Frame) : (s.writeFrame f).oackMark = s.oackMark := rfl
@[simp] theorem State.writeFrame_ist (f : Frame) : (s.writeFrame f).ist = s.ist := rfl
@[simp] theorem State.writeFrame_ibuf (f : Frame) : (s.writeFrame f).ibuf = s.ibuf := rfl
@[simp] theorem State.writeFrame_icnt (f : Frame) : (s.writeFrame f).icnt = s.icnt := rfl
@[simp] theorem State.writeFrame_irxMark (f : Frame) : (s.writeFrame f).irxMark = s.irxMark := rfl
@[simp] theorem State.writeFrame_pq (f : Frame) : (s.writeFrame f).pq = s.pq := rfl
@[simp] theorem State.writeFrame_silMark (f : Frame) : (s.writeFrame f).silMark = s.silMark := rfl
@[simp] theorem State.writeFrame_now (f : Frame) : (s.writeFrame f).now = s.now := rfl
@[simp] theorem State.writeFrame_phase (f : Frame) : (s.writeFrame f).phase = s.phase := rfl
@[simp] theorem State.writeFrame_po (f : Frame) : (s.writeFrame f).po = s.po := rfl
@[simp] theorem State.writeFrame_eo (f : Frame) : (s.writeFrame f).eo = s.eo.write f.toList := rfl
@[simp] theorem State.writeFrame_ei (f : Frame) : (s.writeFrame f).ei = s.ei := rfl
@[simp] theorem State.writeFrame_pi (f : Frame) : (s.writeFrame f).pi = s.pi := rfl
@[simp] theorem State.writeFrame_cmd (f : Frame) : (s.writeFrame f).cmd = s.cmd := rfl
@[simp] theorem State.writeFrame_resp (f : Frame) : (s.writeFrame f).resp = s.resp := rfl
@[simp] theorem State.writeFrame_diag (f : Frame) : (s.writeFrame f).diag = s.diag := rfl
@[simp] theorem State.writeFrame_schedule (f : Frame) : (s.writeFrame f).schedule = s.schedule := rfl
@[simp] theorem State.writeFrame_freeCount (f : Frame) : (s.writeFrame f).freeCount = s.freeCount := rfl

@[simp] theorem State.sample_opn (t : Time) : (s.sample t).opn = s.opn := rfl
@[simp] theorem State.sample_lipn (t : Time) : (s.sample t).lipn = s.lipn := rfl
@[simp] theorem State.sample_ost (t : Time) : (s.sample t).ost = s.ost := rfl
@[simp] theorem State.sample_obuf (t : Time) : (s.sample t).obuf = s.obuf := rfl
@[simp] theorem State.sample_ocnt (t : Time) : (s.sample t).ocnt = s.ocnt := rfl
@[simp] theorem State.sample_oretry (t : Time) : (s.sample t).oretry = s.oretry := rfl
@[simp] theorem State.sample_oreadMark (t : Time) : (s.sample t).oreadMark = s.oreadMark := rfl
@[simp] theorem State.sample_oackMark (t : Time) : (s.sample t).oackMark = s.oackMark := rfl
@[simp] theorem State.sample_ist (t : Time) : (s.sample t).ist = s.ist := rfl
@[simp] theorem State.sample_ibuf (t : Time) : (s.sample t).ibuf = s.ibuf := rfl
@[simp] theorem State.sample_icnt (t : Time) : (s.sample t).icnt = s.icnt := rfl
@[simp] theorem State.sample_irxMark (t : Time) : (s.sample t).irxMark = s.irxMark := rfl
@[simp] theorem State.sample_pq (t : Time) : (s.sample t).pq = s.pq := rfl
@[simp] theorem State.sample_silMark (t : Time) : (s.sample t).silMark = s.silMark := rfl
@[simp] theorem State.sample_now (t : Time) : (s.sample t).now = t := rfl
@[simp] theorem State.sample_phase (t : Time) : (s.sample t).phase = s.phase := rfl
@[simp] theorem State.sample_po (t : Time) : (s.sample t).po = s.po := rfl
@[simp] theorem State.sample_eo (t : Time) : (s.sample t).eo = s.eo := rfl
@[simp] theorem State.sample_ei (t : Time) : (s.sample t).ei = s.ei := rfl
@[simp] theorem State.sample_pi (t : Time) : (s.sample t).pi = s.pi := rfl
@[simp] theorem State.sample_cmd (t : Time) : (s.sample t).cmd = s.cmd := rfl
@[simp] theorem State.sample_resp (t : Time) : (s.sample t).resp = s.resp := rfl
@[simp] theorem State.sample_diag (t : Time) : (s.sample t).diag = s.diag := rfl
@[simp] theorem State.sample_schedule (t : Time) : (s.sample t).schedule = s.schedule := rfl
@[simp] theorem State.sample_freeCount (t : Time) : (s.sample t).freeCount = s.freeCount := rfl

@[simp] theorem State.pqDropHead_opn : s.pqDropHead.opn = s.opn := rfl
@[simp] theorem State.pqDropHead_lipn : s.pqDropHead.lipn = s.lipn := rfl
@[simp] theorem State.pqDropHead_ost : s.pqDropHead.ost = s.ost := rfl
@[simp] theorem State.pqDropHead_obuf : s.pqDropHead.obuf = s.obuf := rfl
@[simp] theorem State.pqDropHead_ocnt : s.pqDropHead.ocnt = s.ocnt := rfl
@[simp] theorem State.pqDropHead_oretry : s.pqDropHead.oretry = s.oretry := rfl
@[simp] theorem State.pqDropHead_oreadMark : s.pqDropHead.oreadMark = s.oreadMark := rfl
@[simp] theorem State.pqDropHead_oackMark : s.pqDropHead.oackMark = s.oackMark := rfl
@[simp] theorem State.pqDropHead_ist : s.pqDropHead.ist = s.ist := rfl
@[simp] theorem State.pqDropHead_ibuf : s.pqDropHead.ibuf = s.ibuf := rfl
@[simp] theorem State.pqDropHead_icnt : s.pqDropHead.icnt = s.icnt := rfl
@[simp] theorem State.pqDropHead_irxMark : s.pqDropHead.irxMark = s.irxMark := rfl
@[simp] theorem State.pqDropHead_pq : s.pqDropHead.pq = s.pq.tail := rfl
@[simp] theorem State.pqDropHead_silMark : s.pqDropHead.silMark = s.silMark := rfl
@[simp] theorem State.pqDropHead_now : s.pqDropHead.now = s.now := rfl
@[simp] theorem State.pqDropHead_phase : s.pqDropHead.phase = s.phase := rfl
@[simp] theorem State.pqDropHead_po : s.pqDropHead.po = s.po := rfl
@[simp] theorem State.pqDropHead_eo : s.pqDropHead.eo = s.eo := rfl
@[simp] theorem State.pqDropHead_ei : s.pqDropHead.ei = s.ei := rfl
@[simp] theorem State.pqDropHead_pi : s.pqDropHead.pi = s.pi := rfl
@[simp] theorem State.pqDropHead_cmd : s.pqDropHead.cmd = s.cmd := rfl
@[simp] theorem State.pqDropHead_resp : s.pqDropHead.resp = s.resp := rfl
@[simp] theorem State.pqDropHead_diag : s.pqDropHead.diag = s.diag := rfl
@[simp] theorem State.pqDropHead_schedule : s.pqDropHead.schedule = s.schedule := rfl
@[simp] theorem State.pqDropHead_freeCount : s.pqDropHead.freeCount = s.freeCount := rfl

@[simp] theorem State.resetOutgoingMachine_opn : s.resetOutgoingMachine.opn = s.opn := rfl
@[simp] theorem State.resetOutgoingMachine_lipn : s.resetOutgoingMachine.lipn = s.lipn := rfl
@[simp] theorem State.resetOutgoingMachine_ost : s.resetOutgoingMachine.ost = 0 := rfl
@[simp] theorem State.resetOutgoingMachine_obuf : s.resetOutgoingMachine.obuf = s.obuf := rfl
@[simp] theorem State.resetOutgoingMachine_ocnt : s.resetOutgoingMachine.ocnt = 0 := rfl
@[simp] theorem State.resetOutgoingMachine_oretry : s.resetOutgoingMachine.oretry = 0 := rfl
@[simp] theorem State.resetOutgoingMachine_oreadMark : s.resetOutgoingMachine.oreadMark = s.oreadMark := rfl
@[simp] theorem State.resetOutgoingMachine_oackMark : s.resetOutgoingMachine.oackMark = s.oackMark := rfl
@[simp] theorem State.resetOutgoingMachine_ist : s.resetOutgoingMachine.ist = s.ist := rfl
@[simp] theorem State.resetOutgoingMachine_ibuf : s.resetOutgoingMachine.ibuf = s.ibuf := rfl
@[simp] theorem State.resetOutgoingMachine_icnt : s.resetOutgoingMachine.icnt = s.icnt := rfl
@[simp] theorem State.resetOutgoingMachine_irxMark : s.resetOutgoingMachine.irxMark = s.irxMark := rfl
@[simp] theorem State.resetOutgoingMachine_pq : s.resetOutgoingMachine.pq = s.pq := rfl
@[simp] theorem State.resetOutgoingMachine_silMark : s.resetOutgoingMachine.silMark = s.silMark := rfl
@[simp] theorem State.resetOutgoingMachine_now : s.resetOutgoingMachine.now = s.now := rfl
@[simp] theorem State.resetOutgoingMachine_phase : s.resetOutgoingMachine.phase = s.phase := rfl
@[simp] theorem State.resetOutgoingMachine_po : s.resetOutgoingMachine.po = s.po := rfl
@[simp] theorem State.resetOutgoingMachine_eo : s.resetOutgoingMachine.eo = s.eo := rfl
@[simp] theorem State.resetOutgoingMachine_ei : s.resetOutgoingMachine.ei = s.ei := rfl
@[simp] theorem State.resetOutgoingMachine_pi : s.resetOutgoingMachine.pi = s.pi := rfl
@[simp] theorem State.resetOutgoingMachine_cmd : s.resetOutgoingMachine.cmd = s.cmd := rfl
@[simp] theorem State.resetOutgoingMachine_resp : s.resetOutgoingMachine.resp = s.resp := rfl
@[simp] theorem State.resetOutgoingMachine_diag : s.resetOutgoingMachine.diag = s.diag := rfl
@[simp] theorem State.resetOutgoingMachine_schedule : s.resetOutgoingMachine.schedule = s.schedule := rfl
@[simp] theorem State.resetOutgoingMachine_freeCount : s.resetOutgoingMachine.freeCount = s.freeCount := rfl

@[simp] theorem State.resetIncomingMachine_opn : s.resetIncomingMachine.opn = s.opn := rfl
@[simp] theorem State.resetIncomingMachine_lipn : s.resetIncomingMachine.lipn = s.lipn := rfl
@[simp] theorem State.resetIncomingMachine_ost : s.resetIncomingMachine.ost = s.ost := rfl
@[simp] theorem State.resetIncomingMachine_obuf : s.resetIncomingMachine.obuf = s.obuf := rfl
@[simp] theorem State.resetIncomingMachine_ocnt : s.resetIncomingMachine.ocnt = s.ocnt := rfl
@[simp] theorem State.resetIncomingMachine_oretry : s.resetIncomingMachine.oretry = s.oretry := rfl
@[simp] theorem State.resetIncomingMachine_oreadMark : s.resetIncomingMachine.oreadMark = s.oreadMark := rfl
@[simp] theorem State.resetIncomingMachine_oackMark : s.resetIncomingMachine.oackMark = s.oackMark := rfl
@[simp] theorem State.resetIncomingMachine_ist : s.resetIncomingMachine.ist = 0 := rfl
@[simp] theorem State.resetIncomingMachine_ibuf : s.resetIncomingMachine.ibuf = s.ibuf := rfl
@[simp] theorem State.resetIncomingMachine_icnt : s.resetIncomingMachine.icnt = 0 := rfl
@[simp] theorem State.resetIncomingMachine_irxMark : s.resetIncomingMachine.irxMark = s.irxMark := rfl
@[simp] theorem State.resetIncomingMachine_pq : s.resetIncomingMachine.pq = s.pq := rfl
@[simp] theorem State.resetIncomingMachine_silMark : s.resetIncomingMachine.silMark = s.silMark := rfl
@[simp] theorem State.resetIncomingMachine_now : s.resetIncomingMachine.now = s.now := rfl
@[simp] theorem State.resetIncomingMachine_phase : s.resetIncomingMachine.phase = s.phase := rfl
@[simp] theorem State.resetIncomingMachine_po : s.resetIncomingMachine.po = s.po := rfl
@[simp] theorem State.resetIncomingMachine_eo : s.resetIncomingMachine.eo = s.eo := rfl
@[simp] theorem State.resetIncomingMachine_ei : s.resetIncomingMachine.ei = s.ei := rfl
@[simp] theorem State.resetIncomingMachine_pi : s.resetIncomingMachine.pi = s.pi := rfl
@[simp] theorem State.resetIncomingMachine_cmd : s.resetIncomingMachine.cmd = s.cmd := rfl
@[simp] theorem State.resetIncomingMachine_resp : s.resetIncomingMachine.resp = s.resp := rfl
@[simp] theorem State.resetIncomingMachine_diag : s.resetIncomingMachine.diag = s.diag := rfl
@[simp] theorem State.resetIncomingMachine_schedule : s.resetIncomingMachine.schedule = s.schedule := rfl
@[simp] theorem State.resetIncomingMachine_freeCount : s.resetIncomingMachine.freeCount = s.freeCount := rfl

@[simp] theorem State.resetPacketNumbering_opn : s.resetPacketNumbering.opn = 1 := rfl
@[simp] theorem State.resetPacketNumbering_lipn : s.resetPacketNumbering.lipn = 0 := rfl
@[simp] theorem State.resetPacketNumbering_ost : s.resetPacketNumbering.ost = 0 := rfl
@[simp] theorem State.resetPacketNumbering_obuf : s.resetPacketNumbering.obuf = s.obuf := rfl
@[simp] theorem State.resetPacketNumbering_ocnt : s.resetPacketNumbering.ocnt = 0 := rfl
@[simp] theorem State.resetPacketNumbering_oretry : s.resetPacketNumbering.oretry = 0 := rfl
@[simp] theorem State.resetPacketNumbering_oreadMark : s.resetPacketNumbering.oreadMark = s.oreadMark := rfl
@[simp] theorem State.resetPacketNumbering_oackMark : s.resetPacketNumbering.oackMark = s.oackMark := rfl
@[simp] theorem State.resetPacketNumbering_ist : s.resetPacketNumbering.ist = 0 := rfl
@[simp] theorem State.resetPacketNumbering_ibuf : s.resetPacketNumbering.ibuf = s.ibuf := rfl
@[simp] theorem State.resetPacketNumbering_icnt : s.resetPacketNumbering.icnt = 0 := rfl
@[simp] theorem State.resetPacketNumbering_irxMark : s.resetPacketNumbering.irxMark = s.irxMark := rfl
@[simp] theorem State.resetPacketNumbering_pq : s.resetPacketNumbering.pq = [] := rfl
@[simp] theorem State.resetPacketNumbering_silMark : s.resetPacketNumbering.silMark = s.now := rfl
@[simp] theorem State.resetPacketNumbering_now : s.resetPacketNumbering.now = s.now := rfl
@[simp] theorem State.resetPacketNumbering_phase : s.resetPacketNumbering.phase = s.phase := rfl
@[simp] theorem State.resetPacketNumbering_po : s.resetPacketNumbering.po = s.po := rfl
@[simp] theorem State.resetPacketNumbering_eo : s.resetPacketNumbering.eo = s.eo := rfl
@[simp] theorem State.resetPacketNumbering_ei : s.resetPacketNumbering.ei = s.ei := rfl
@[simp] theorem State.resetPacketNumbering_pi : s.resetPacketNumbering.pi = s.pi := rfl
@[simp] theorem State.resetPacketNumbering_cmd : s.resetPacketNumbering.cmd = s.cmd := rfl
@[simp] theorem State.resetPacketNumbering_resp : s.resetPacketNumbering.resp = s.resp := rfl
@[simp] theorem State.resetPacketNumbering_diag : s.resetPacketNumbering.diag = s.diag := rfl
@[simp] theorem State.resetPacketNumbering_schedule : s.resetPacketNumbering.schedule = s.schedule := rfl
@[simp] theorem State.resetPacketNumbering_freeCount : s.resetPacketNumbering.freeCount = s.freeCount := rfl

@[simp] theorem State.powerOn_opn (t : Time) : (s.powerOn t).opn = 1 := rfl
@[simp] theorem State.powerOn_lipn (t : Time) : (s.powerOn t).lipn = 0 := rfl
@[simp] theorem State.powerOn_ost (t : Time) : (s.powerOn t).ost = 0 := rfl
@[simp] theorem State.powerOn_obuf (t : Time) : (s.powerOn t).obuf = State.reset.obuf := rfl
@[simp] theorem State.powerOn_ocnt (t : Time) : (s.powerOn t).ocnt = 0 := rfl
@[simp] theorem State.powerOn_oretry (t : Time) : (s.powerOn t).oretry = 0 := rfl
@[simp] theorem State.powerOn_oreadMark (t : Time) : (s.powerOn t).oreadMark = State.reset.oreadMark := rfl
@[simp] theorem State.powerOn_oackMark (t : Time) : (s.powerOn t).oackMark = State.reset.oackMark := rfl
@[simp] theorem State.powerOn_ist (t : Time) : (s.powerOn t).ist = 0 := rfl
@[simp] theorem State.powerOn_ibuf (t : Time) : (s.powerOn t).ibuf = State.reset.ibuf := rfl
@[simp] theorem State.powerOn_icnt (t : Time) : (s.powerOn t).icnt = 0 := rfl
@[simp] theorem State.powerOn_irxMark (t : Time) : (s.powerOn t).irxMark = State.reset.irxMark := rfl
@[simp] theorem State.powerOn_pq (t : Time) : (s.powerOn t).pq = [] := rfl
@[simp] theorem State.powerOn_silMark (t : Time) : (s.powerOn t).silMark = t := rfl
@[simp] theorem State.powerOn_now (t : Time) : (s.powerOn t).now = t := rfl
@[simp] theorem State.powerOn_phase (t : Time) : (s.powerOn t).phase = .idle := rfl
@[simp] theorem State.powerOn_po (t : Time) : (s.powerOn t).po = s.po := rfl
@[simp] theorem State.powerOn_eo (t : Time) : (s.powerOn t).eo = s.eo := rfl
@[simp] theorem State.powerOn_ei (t : Time) : (s.powerOn t).ei = s.ei := rfl
@[simp] theorem State.powerOn_pi (t : Time) : (s.powerOn t).pi = s.pi := rfl
@[simp] theorem State.powerOn_cmd (t : Time) : (s.powerOn t).cmd = s.cmd := rfl
@[simp] theorem State.powerOn_resp (t : Time) : (s.powerOn t).resp = s.resp := rfl
@[simp] theorem State.powerOn_diag (t : Time) : (s.powerOn t).diag = s.diag := rfl
@[simp] theorem State.powerOn_schedule (t : Time) : (s.powerOn t).schedule = s.schedule := rfl
@[simp] theorem State.powerOn_freeCount (t : Time) : (s.powerOn t).freeCount = s.freeCount := rfl

@[simp] theorem State.frameDone_opn : s.frameDone.opn = s.opn := rfl
@[simp] theorem State.frameDone_lipn : s.frameDone.lipn = s.lipn := rfl
@[simp] theorem State.frameDone_ost : s.frameDone.ost = s.ost := rfl
@[simp] theorem State.frameDone_obuf : s.frameDone.obuf = s.obuf := rfl
@[simp] theorem State.frameDone_ocnt : s.frameDone.ocnt = s.ocnt := rfl
@[simp] theorem State.frameDone_oretry : s.frameDone.oretry = s.oretry := rfl
@[simp] theorem State.frameDone_oreadMark : s.frameDone.oreadMark = s.oreadMark := rfl
@[simp] theorem State.frameDone_oackMark : s.frameDone.oackMark = s.oackMark := rfl
@[simp] theorem State.frameDone_ist : s.frameDone.ist = 0 := rfl
@[simp] theorem State.frameDone_ibuf : s.frameDone.ibuf = s.ibuf := rfl
@[simp] theorem State.frameDone_icnt : s.frameDone.icnt = 0 := rfl
@[simp] theorem State.frameDone_irxMark : s.frameDone.irxMark = s.irxMark := rfl
@[simp] theorem State.frameDone_pq : s.frameDone.pq = s.pq := rfl
@[simp] theorem State.frameDone_silMark : s.frameDone.silMark = s.now := rfl
@[simp] theorem State.frameDone_now : s.frameDone.now = s.now := rfl
@[simp] theorem State.frameDone_phase : s.frameDone.phase = s.phase := rfl
@[simp] theorem State.frameDone_po : s.frameDone.po = s.po := rfl
@[simp] theorem State.frameDone_eo : s.frameDone.eo = s.eo := rfl
@[simp] theorem State.frameDone_ei : s.frameDone.ei = s.ei := rfl
@[simp] theorem State.frameDone_pi : s.frameDone.pi = s.pi := rfl
@[simp] theorem State.frameDone_cmd : s.frameDone.cmd = s.cmd := rfl
@[simp] theorem State.frameDone_resp : s.frameDone.resp = s.resp := rfl
@[simp] theorem State.frameDone_diag : s.frameDone.diag = s.diag := rfl
@[simp] theorem State.frameDone_schedule : s.frameDone.schedule = s.schedule := rfl
@[simp] theorem State.frameDone_freeCount : s.frameDone.freeCount = s.freeCount := rfl

end

section
variable (p : Port) (bs : List Byte) (n : Nat)

@[simp] theorem Port.dropOldest_bytes : p.dropOldest.bytes = p.bytes.tail := rfl
@[simp] theorem Port.dropOldest_capacity : p.dropOldest.capacity = p.capacity := rfl
@[simp] theorem Port.write_bytes : (p.write bs).bytes = p.bytes ++ bs := rfl
@[simp] theorem Port.write_capacity : (p.write bs).capacity = p.capacity := rfl
@[simp] theorem Port.fill_bytes : (p.fill bs).bytes = p.bytes ++ bs.take p.availableForWrite := rfl
@[simp] theorem Port.fill_capacity : (p.fill bs).capacity = p.capacity := rfl
@[simp] theorem Port.drain_bytes : (p.drain n).bytes = p.bytes.drop n := rfl
@[simp] theorem Port.drain_capacity : (p.drain n).capacity = p.capacity := rfl

end

end Sys2Proof.Machine
end

