-- ==== Sys2Proof/Laws/Ops.lean ====
section
/-! SUPPORT. For each shared operation, once, all it can do; later proofs cite these and do not unfold the operation. -/

namespace Sys2Proof.Machine

/-! ## Streams: the bound is kept by every operation -/

theorem Port.write_bounded {p : Port} {bs : List Byte} (hb : p.bytes.length ≤ p.capacity)
    (hr : bs.length ≤ p.availableForWrite) : (p.write bs).bytes.length ≤ (p.write bs).capacity := by
  simp only [Port.availableForWrite] at hr
  simp only [Port.write_bytes, Port.write_capacity, List.length_append]
  omega

theorem Port.fill_bounded {p : Port} (bs : List Byte) (hb : p.bytes.length ≤ p.capacity) :
    (p.fill bs).bytes.length ≤ (p.fill bs).capacity := by
  simp only [Port.fill_bytes, Port.fill_capacity, List.length_append, List.length_take, Port.availableForWrite]
  omega

theorem Port.drain_bounded {p : Port} (n : Nat) (hb : p.bytes.length ≤ p.capacity) :
    (p.drain n).bytes.length ≤ (p.drain n).capacity := by
  simp only [Port.drain_bytes, Port.drain_capacity, List.length_drop]
  omega

theorem Port.dropOldest_bounded {p : Port} (hb : p.bytes.length ≤ p.capacity) :
    p.dropOldest.bytes.length ≤ p.dropOldest.capacity := by
  simp only [Port.dropOldest_bytes, Port.dropOldest_capacity, List.length_tail]
  omega

theorem State.eoHasRoom_iff (s : State) : s.eoHasRoom = true ↔ 15 ≤ s.eo.availableForWrite := by
  simp [State.eoHasRoom]

/-! ## Time -/

theorem State.expired_iff (s : State) (mark : Time) (t : Nat) :
    s.expired mark t = true ↔ t ≤ (s.now - mark).toNat :=
  decide_eq_true_iff

/-! ## Sequence numbers, queue -/

theorem State.advanceOPN_cases (s : State) :
    (s.opn = 255 ∧ s.advanceOPN = { s with opn := 1, lipn := 0 }) ∨
    (s.opn ≠ 255 ∧ s.advanceOPN = { s with opn := s.opn + 1 }) := by
  unfold State.advanceOPN
  split
  · exact .inl ⟨‹_›, rfl⟩
  · exact .inr ⟨‹_›, rfl⟩

theorem State.isNew_iff (s : State) (pn : Byte) : s.isNew pn = true ↔ s.lipn.toNat < pn.toNat := by
  simp [State.isNew]

theorem State.pqPush_cases (s : State) (e : PendingMessage) :
    (s.pq.length < 4 ∧ s.pqPush e = { s with pq := s.pq ++ [e] }) ∨
    (4 ≤ s.pq.length ∧ s.pqPush e = { s with diag := s.diag ++ [.queueOverflow e.kind e.pn] }) := by
  unfold State.pqPush
  split
  · exact .inl ⟨‹_›, rfl⟩
  · exact .inr ⟨by simp only [Config.pendingDepth] at *; omega, rfl⟩

theorem State.pqLen_toNat {s : State} (h : s.pq.length ≤ 4) : s.pqLen.toNat = s.pq.length := by
  simp only [State.pqLen, BitVec.toNat_ofNat]
  omega

/-! ## Resets and the silence check -/

theorem State.silenceCheck_cases (s : State) :
    (10000 ≤ (s.now - s.silMark).toNat ∧ s.silenceCheck = (s.emit .silenceReset).resetPacketNumbering) ∨
    ((s.now - s.silMark).toNat < 10000 ∧ s.silenceCheck = s) := by
  unfold State.silenceCheck
  split
  · exact .inl ⟨(s.expired_iff _ _).mp ‹_›, rfl⟩
  · refine .inr ⟨?_, rfl⟩
    have := mt (s.expired_iff s.silMark Config.silenceTimeoutMs).mpr ‹_›
    simp only [Config.silenceTimeoutMs] at this
    omega

/-! ## The scheduler's count: it touches the phase, the responses and the events only -/

theorem State.machineDone_cases (s : State) (m : MachineId) :
    (m = .outgoing ∧ s.machineDone m = { s with phase := .running .incoming 0 }) ∨
    (m = .incoming ∧ s.machineDone m = { s with phase := .idle, resp := s.resp ++ [0x00] }) := by
  cases m
  · exact .inl ⟨rfl, rfl⟩
  · exact .inr ⟨rfl, rfl⟩

theorem State.machineDone_frame (s : State) (m : MachineId) :
    s.machineDone m = { s with phase := (s.machineDone m).phase, resp := (s.machineDone m).resp } := by
  cases m <;> rfl

theorem State.countProgress_cases (s : State) (m : MachineId) (n : Nat) :
    (n + 1 < 17 ∧ s.countProgress m n = { s with phase := .running m (n + 1) }) ∨
    (17 ≤ n + 1 ∧ s.countProgress m n = (s.emit (.tooManyStateTransitions m)).machineDone m) := by
  unfold State.countProgress
  split
  · exact .inl ⟨‹_›, rfl⟩
  · exact .inr ⟨by simp only [Config.transitionCap, Config.frameLen] at *; omega, rfl⟩

theorem State.countProgress_frame (s : State) (m : MachineId) (n : Nat) :
    s.countProgress m n =
      { s with phase := (s.countProgress m n).phase, resp := (s.countProgress m n).resp,
               diag := (s.countProgress m n).diag } := by
  unfold State.countProgress
  split
  · rfl
  · cases m <;> rfl

theorem State.afterProgress_frame (s : State) (m : MachineId) :
    s.afterProgress m =
      { s with phase := (s.afterProgress m).phase, resp := (s.afterProgress m).resp,
               diag := (s.afterProgress m).diag } := by
  unfold State.afterProgress
  split
  · rfl
  · split
    · exact s.countProgress_frame m _
    · rfl

theorem State.afterNoProgress_frame (s : State) (m : MachineId) :
    s.afterNoProgress m =
      { s with phase := (s.afterNoProgress m).phase, resp := (s.afterNoProgress m).resp } := by
  unfold State.afterNoProgress
  split
  · rfl
  · split
    · exact s.machineDone_frame m
    · rfl

/-- A transition's instruction answers a next state exactly when the transition does not fault. -/
theorem afterTransition_next {m : MachineId} {t : Transition} {u : State}
    (h : afterTransition m t = .next u) :
    (∃ s, t = .progress s ∧ u = s.afterProgress m) ∨ (∃ s, t = .noProgress s ∧ u = s.afterNoProgress m) := by
  cases t with
  | progress s =>
    simp only [afterTransition, Host.Outcome.next.injEq] at h
    exact .inl ⟨s, rfl, h.symm⟩
  | noProgress s =>
    simp only [afterTransition, Host.Outcome.next.injEq] at h
    exact .inr ⟨s, rfl, h.symm⟩
  | fault r => simp [afterTransition] at h

theorem afterTransition_not_refused (m : MachineId) (t : Transition) (r : Refusal) :
    afterTransition m t ≠ .refused r := by
  cases t <;> simp [afterTransition]

/-- A command's instruction answers a next state exactly when none is in progress. -/
theorem whenIdle_next {s t u : State} (h : whenIdle s t = .next u) : s.phase = .idle ∧ u = t := by
  unfold whenIdle at h
  split at h
  · exact ⟨‹_›, by simpa using h.symm⟩
  · cases h

theorem whenIdle_idle {s : State} (h : s.phase = .idle) (t : State) : whenIdle s t = .next t := if_pos h

/-! ## The outgoing transitions -/

theorem readTimer_cases (s : State) :
    (0 < s.ocnt.toNat ∧ 100 ≤ (s.now - s.oreadMark).toNat ∧ readTimer s = .progress { s with ost := 1 }) ∨
    ((s.ocnt.toNat = 0 ∨ (s.now - s.oreadMark).toNat < 100) ∧ readTimer s = .noProgress s) := by
  unfold readTimer
  split
  · exact .inl ⟨by omega, (s.expired_iff _ _).mp (by tauto), rfl⟩
  · rename_i h
    refine .inr ⟨?_, rfl⟩
    rw [s.expired_iff] at h
    simp only [Config.readTimeoutMs] at h
    omega

theorem State.retryOrAbandon_cases (s : State) :
    (s.oretry.toNat < 5 ∧ s.retryOrAbandon = { s with oretry := s.oretry + 1, ost := 1 }) ∨
    (5 ≤ s.oretry.toNat ∧
      s.retryOrAbandon =
        { s with oretry := 0, ocnt := 0, ost := 0, diag := s.diag ++ [.maxRetriesExceeded s.opn] }) := by
  unfold State.retryOrAbandon
  split
  · exact .inl ⟨‹_›, rfl⟩
  · exact .inr ⟨by simp only [Config.maxRetryCount] at *; omega, rfl⟩

/-! ## The incoming transitions that read a byte -/

theorem State.nextIcnt_cases (s : State) :
    (s.icnt.toNat < 15 ∧ s.nextIcnt = s.icnt + 1 ∧ s.nextFreeCount = s.freeCount) ∨
    (s.icnt = 15 ∧ s.nextIcnt = Config.freeIcnt s.freeCount ∧ s.nextFreeCount = s.freeCount + 1) := by
  unfold State.nextIcnt State.nextFreeCount
  split
  · exact .inl ⟨‹_›, rfl, rfl⟩
  · refine .inr ⟨BitVec.eq_of_toNat_eq ?_, rfl, rfl⟩
    have := s.icnt.isLt
    simp only [Config.frameLen] at *
    rw [show (15 : BitVec 4).toNat = 15 from rfl]
    omega

/-- All READ_INCOMING_DATA can do: store a byte, give the frame up, or wait. It never faults. -/
theorem inRead_cases (s : State) :
    (∃ b rest, s.ei.bytes = b :: rest ∧
      inRead s = .progress { s with
        ei := ⟨rest, s.ei.capacity⟩, ibuf := s.ibuf.setIfInBounds s.icnt.toNat b, icnt := s.nextIcnt
        ist := if s.nextIcnt.toNat = 15 then 2 else s.ist, freeCount := s.nextFreeCount }) ∨
    (s.ei.bytes = [] ∧ 500 ≤ (s.now - s.irxMark).toNat ∧ inRead s = .progress { s with icnt := 0, ist := 0 }) ∨
    (s.ei.bytes = [] ∧ (s.now - s.irxMark).toNat < 500 ∧ inRead s = .noProgress s) := by
  unfold inRead
  split
  · rename_i b rest h
    exact .inl ⟨b, rest, h, by simp only [Port.dropOldest, h, List.tail_cons]⟩
  · rename_i h
    split
    · exact .inr (.inl ⟨h, (s.expired_iff _ _).mp ‹_›, rfl⟩)
    · refine .inr (.inr ⟨h, ?_, rfl⟩)
      have := mt (s.expired_iff s.irxMark Config.rxTimeoutMs).mpr ‹_›
      simp only [Config.rxTimeoutMs] at this
      omega

/-! ## Processing a frame -/

/-- The whole commit of a frame, as one update, for an action that does not reset. -/
theorem commitFrame_noReset (s : State) (pn : Byte) (a : FrameAction) (h : a.doReset = false) :
    commitFrame s pn a =
      (((((s.reportInvalid a).deliverPayload pn a).enqueueResponse a).sendReply a)).frameDone := by
  simp [commitFrame, State.resetIfAsked, h]

/-- All `performFrame` can do: hold for EO, hold for PI, or commit. -/
theorem performFrame_cases (s : State) (pn : Byte) (a : FrameAction) :
    (a.reply.isSome = true ∧ s.eo.availableForWrite < 15 ∧
      performFrame s pn a = .noProgress (s.emit (.bufferFull .eo))) ∨
    ((a.reply.isSome = true → 15 ≤ s.eo.availableForWrite) ∧
      (∃ bs, a.deliver = some bs ∧ s.pi.availableForWrite < bs.length) ∧
      performFrame s pn a = .noProgress (s.emit (.bufferFull .pi))) ∨
    ((a.reply.isSome = true → 15 ≤ s.eo.availableForWrite) ∧
      (∀ bs, a.deliver = some bs → bs.length ≤ s.pi.availableForWrite) ∧
      performFrame s pn a = .progress (commitFrame s pn a)) := by
  unfold performFrame
  split
  · rename_i h
    refine .inl ⟨h.1, ?_, rfl⟩
    have := h.2
    simp only [State.eoHasRoom, decide_eq_false_iff_not] at this
    simp only [Config.frameLen] at this
    omega
  · rename_i h
    have hroom : a.reply.isSome = true → 15 ≤ s.eo.availableForWrite := by
      intro hr
      by_contra hc
      refine h ⟨hr, ?_⟩
      simp only [State.eoHasRoom, decide_eq_false_iff_not, Config.frameLen]
      exact hc
    split
    · rename_i hd
      refine .inr (.inl ⟨hroom, ?_, rfl⟩)
      unfold deliveryLacksRoom at hd
      split at hd
      · exact ⟨_, ‹_›, by simpa using hd⟩
      · cases hd
    · rename_i hd
      refine .inr (.inr ⟨hroom, ?_, rfl⟩)
      intro bs hbs
      simp only [deliveryLacksRoom, hbs, decide_eq_true_eq] at hd
      omega

/-! ## The outside -/

/-- An action other than `por` touches the streams only. -/
theorem State.applyInput_frame (s : State) (x : Input) (h : ∀ t, x ≠ .por t) :
    s.applyInput x =
      { s with cmd := (s.applyInput x).cmd, po := (s.applyInput x).po, eo := (s.applyInput x).eo,
               ei := (s.applyInput x).ei, pi := (s.applyInput x).pi } := by
  cases x with
  | por t => exact absurd rfl (h t)
  | _ => rfl

/-- No action of the outside changes the schedule. -/
@[simp] theorem State.applyInput_schedule (s : State) (x : Input) : (s.applyInput x).schedule = s.schedule := by
  cases x <;> rfl

@[simp] theorem State.applyInputs_schedule (batch : List Input) :
    ∀ s : State, (s.applyInputs batch).schedule = s.schedule := by
  induction batch with
  | nil => intro s; rfl
  | cons x xs ih => intro s; exact (ih (s.applyInput x)).trans (s.applyInput_schedule x)

@[simp] theorem State.takeInputs_schedule (s : State) : s.takeInputs.schedule = s.schedule.tail := by
  simp [State.takeInputs]

/-- With nothing due, the outside changes nothing. -/
theorem State.takeInputs_empty {s : State} (h : s.schedule = []) : s.takeInputs = s := by
  obtain ⟨_⟩ := s
  simp only at h
  subst h
  rfl

/-- With an empty batch due, only the batch goes. -/
theorem State.takeInputs_nil_batch {s : State} {rest : List (List Input)} (h : s.schedule = [] :: rest) :
    s.takeInputs = { s with schedule := rest } := by
  obtain ⟨_⟩ := s
  simp only at h
  subst h
  rfl

/-- A property every action keeps holds after a batch. -/
theorem State.applyInputs_keeps {P : State → Prop} (hP : ∀ s x, P s → P (s.applyInput x)) (batch : List Input) :
    ∀ s : State, P s → P (s.applyInputs batch) := by
  induction batch with
  | nil => intro s h; exact h
  | cons x xs ih => intro s h; exact ih _ (hP s x h)

/-! ## Fetch and step -/

/-- All `fetch` can answer. -/
theorem fetch_cases (s : State) :
    (∃ m n, s.phase = .running m n ∧ fetch s = .run (decodeSelector (s.selector m)) s) ∨
    (∃ i rest, s.phase = .idle ∧ decodeCommand s.cmd = .complete i rest ∧
      fetch s = .run i { s with cmd := rest }) ∨
    (s.phase = .idle ∧ decodeCommand s.cmd = .incomplete ∧ fetch s = .wait s) ∨
    (∃ c rest, s.phase = .idle ∧ decodeCommand s.cmd = .reserved c rest ∧
      fetch s = .wait (({ s with cmd := rest }).respond [0xFF])) := by
  unfold fetch
  split
  · rename_i m n h
    exact .inl ⟨m, n, h, rfl⟩
  · rename_i h
    split
    · rename_i i rest hd
      exact .inr (.inl ⟨i, rest, h, hd, rfl⟩)
    · rename_i hd
      exact .inr (.inr (.inl ⟨h, hd, rfl⟩))
    · rename_i c rest hd
      exact .inr (.inr (.inr ⟨c, rest, h, hd, rfl⟩))

/-- All a step can do: run a fetched instruction, or wait. -/
theorem step_next {s t : State} (h : step s = .next t) :
    (∃ i s', fetch s.takeInputs = .run i s' ∧ exec i s' = .next t) ∨ fetch s.takeInputs = .wait t := by
  unfold step at h
  split at h
  · exact .inl ⟨_, _, ‹_›, h⟩
  · simp only [Host.Outcome.next.injEq] at h
    exact .inr (h ▸ ‹_›)

end Sys2Proof.Machine
end

