-- ==== Sys2Proof/Laws/PerInstr.lean ====
section
/-! SUPPORT. A family of facts about every instruction as syntax, one lemma per constructor: the format of its encoding is
the one its row of spec/opcode_table.json has. -/

namespace Sys2Proof

/-- The three formats of spec/opcode_table.json. -/
inductive Format where
  | frame15
  | cmd
  | state
deriving DecidableEq, Repr

/-- The format of a code. -/
def Code.format : Code → Format
  | .frame _ => .frame15
  | .command _ => .cmd
  | .selector _ => .state

/-- The format of an instruction's row. -/
def Instr.format : Instr → Format
  | .data _ _ _ _ => .frame15
  | .ack _ _ _ _ => .frame15
  | .nack _ _ _ _ => .frame15
  | .reset _ _ _ _ => .frame15
  | .tick _ => .cmd
  | .sendReset _ => .cmd
  | .resetNumbering _ => .cmd
  | .crc16 _ => .cmd
  | .prepare _ _ _ => .cmd
  | .validate _ => .cmd
  | .outReadData => .state
  | .outSendPackage => .state
  | .outWaitForAckOrNack => .state
  | .outCorrupt => .state
  | .inWaitForStartByte => .state
  | .inReadIncomingData => .state
  | .inProcessIncomingData => .state
  | .inCorrupt => .state

namespace Laws.EncodingFormat

/-- The encoding of an instruction has the format of its row. -/
def Statement (i : Instr) : Prop := (encode i).format = i.format

theorem data (pn len : Byte) (p : Payload) (crc : Word) : Statement (.data pn len p crc) := rfl
theorem ack (pn len : Byte) (p : Payload) (crc : Word) : Statement (.ack pn len p crc) := rfl
theorem nack (pn len : Byte) (p : Payload) (crc : Word) : Statement (.nack pn len p crc) := rfl
theorem reset (pn len : Byte) (p : Payload) (crc : Word) : Statement (.reset pn len p crc) := rfl
theorem tick (now : Time) : Statement (.tick now) := rfl
theorem sendReset (now : Time) : Statement (.sendReset now) := rfl
theorem resetNumbering (now : Time) : Statement (.resetNumbering now) := rfl
theorem crc16 (bytes : List Byte) : Statement (.crc16 bytes) := rfl
theorem prepare (type pn : Byte) (payload : List Byte) : Statement (.prepare type pn payload) := rfl
theorem validate (frame : Frame) : Statement (.validate frame) := rfl
theorem outReadData : Statement .outReadData := rfl
theorem outSendPackage : Statement .outSendPackage := rfl
theorem outWaitForAckOrNack : Statement .outWaitForAckOrNack := rfl
theorem outCorrupt : Statement .outCorrupt := rfl
theorem inWaitForStartByte : Statement .inWaitForStartByte := rfl
theorem inReadIncomingData : Statement .inReadIncomingData := rfl
theorem inProcessIncomingData : Statement .inProcessIncomingData := rfl
theorem inCorrupt : Statement .inCorrupt := rfl

end Laws.EncodingFormat

end Sys2Proof
end

