-- ==== Sys2Proof/Machine/Program.lean ====
section
/-! DEFINITION. Programs for the block (30_encoding.md R92, R93): lines as abstract terms, what each puts at the block's
interface, and the pseudo-instructions that stand for bytes (log 21). -/

namespace Sys2Proof.Machine

/-! ## Pseudo-instructions (R93) -/

/-- `FRAME <type> <pn> <byte>...`. -/
def pseudoFrame (type pn : Byte) (bytes : List Byte) : List Byte := (prepare type pn bytes).toList

/-- `ACKF <pn>`. -/
def pseudoAck (pn : Byte) : List Byte := pseudoFrame 1 pn []

/-- `NACKF <pn> <reason>`. -/
def pseudoNack (pn : Byte) (r : NackReason) : List Byte := pseudoFrame 2 pn [nackCode r]

/-- `RESETF`. -/
def pseudoReset : List Byte := pseudoFrame 3 0 []

/-- `FRAME! <15 bytes>`: verbatim. -/
def pseudoVerbatim (f : Frame) : List Byte := f.toList

/-! ## Lines (R92) -/

/-- What an `.expect` line can name. -/
inductive Observable where
  | opn | lipn | ost | obuf | ocnt | oretry | oreadMark | oackMark
  | ist | ibuf | icnt | irxMark | pqLen | silMark
  | po | eo | ei | pi
deriving DecidableEq, Repr

/-- The value of a register (a number) or of a buffer or port (its bytes). -/
inductive Observation where
  | number (n : Nat)
  | bytes (bs : List Byte)
deriving DecidableEq, Repr

/-- The value an observable has in a state. -/
def State.observe (s : State) : Observable → Observation
  | .opn => .number s.opn.toNat
  | .lipn => .number s.lipn.toNat
  | .ost => .number s.ost.toNat
  | .obuf => .bytes s.obuf.toList
  | .ocnt => .number s.ocnt.toNat
  | .oretry => .number s.oretry.toNat
  | .oreadMark => .number s.oreadMark.toNat
  | .oackMark => .number s.oackMark.toNat
  | .ist => .number s.ist.toNat
  | .ibuf => .bytes s.ibuf.toList
  | .icnt => .number s.icnt.toNat
  | .irxMark => .number s.irxMark.toNat
  | .pqLen => .number s.pqLen.toNat
  | .silMark => .number s.silMark.toNat
  | .po => .bytes s.po.bytes
  | .eo => .bytes s.eo.bytes
  | .ei => .bytes s.ei.bytes
  | .pi => .bytes s.pi.bytes

/-- A program line. -/
inductive Line where
  | tick (now : Time)
  | sendReset (now : Time)
  | resetNumbering (now : Time)
  | crc16 (bytes : List Byte)
  | prepare (type pn : Byte) (bytes : List Byte)
  | validate (frame : Frame)
  /-- `.host PO <- <bytes>`. -/
  | hostPO (bytes : List Byte)
  /-- `.host EI <- <bytes>`. -/
  | hostEI (bytes : List Byte)
  /-- `.host drain EO`. -/
  | drainEO
  /-- `.host drain PI`. -/
  | drainPI
  /-- `.expect <register or port> == <value>`. -/
  | expect (what : Observable) (value : Observation)
deriving DecidableEq, Repr

/-- The command a line issues; host directives and checks issue none. -/
def Line.instr : Line → Option Instr
  | .tick now => some (.tick now)
  | .sendReset now => some (.sendReset now)
  | .resetNumbering now => some (.resetNumbering now)
  | .crc16 bytes => some (.crc16 bytes)
  | .prepare type pn bytes => some (.prepare type pn bytes)
  | .validate frame => some (.validate frame)
  | .hostPO _ => none
  | .hostEI _ => none
  | .drainEO => none
  | .drainPI => none
  | .expect _ _ => none

/-- The bytes of a command line (R88): for CRC16 and PREPARE the encoder counts the bytes. -/
def Line.commandBytes (l : Line) : List Byte :=
  match l.instr with
  | some i =>
    match encode i with
    | .command bytes => bytes
    | .frame _ => []
    | .selector _ => []
  | none => []

/-- What a line does at the block's interface in state `s`; a drain removes every byte. -/
def Line.inputs (s : State) : Line → List Input
  | .hostPO bytes => [.producePO bytes]
  | .hostEI bytes => [.deliverEI bytes]
  | .drainEO => [.drainEO s.eo.available]
  | .drainPI => [.drainPI s.pi.available]
  | .expect _ _ => []
  | l => [.command l.commandBytes]

/-- Whether the check of a line holds in `s`; only `.expect` checks. -/
def Line.holds (s : State) : Line → Bool
  | .expect what value => decide (s.observe what = value)
  | _ => true

end Sys2Proof.Machine
end

