-- ==== Sys2Proof/Tests/Slice0.lean ====
section
/-! SUPPORT. Tests. Every expected value is written out from spec/: a vector of 95_test_vectors.md named in the theorem's
comment, or the encoding tables of 30_encoding.md. The last part shows, for every statement with hypotheses, states and
operands that meet them. -/

namespace Sys2Proof.Tests

-- One theorem after another: each background theorem would reserve a thread of its own.
set_option Elab.async false

open Sys2Proof Sys2Proof.Machine Sys2Proof.Safety

/-! ## Helpers -/

/-- The power-on state with four empty streams of capacity 64 (95_test_vectors.md section 3). -/
def base : State :=
  { State.reset with po := ⟨[], 64⟩, eo := ⟨[], 64⟩, ei := ⟨[], 64⟩, pi := ⟨[], 64⟩ }

/-- `base` inside a TICK that runs machine `m`. -/
def running (m : MachineId) : State := { base with phase := .running m 0 }

/-- `base` about to process the frame `f`. -/
def processing (f : Frame) : State := { running .incoming with ist := 2, icnt := 15, ibuf := f }

/-- The outcome is a next state with the given property. -/
def answers (o : Host.Outcome State Fault Refusal) (p : State → Bool) : Bool :=
  match o with
  | .next s => p s
  | .fault _ => false
  | .refused _ => false

theorem answers_next {o : Host.Outcome State Fault Refusal} {p : State → Bool} (h : answers o p = true) :
    ∃ t, o = .next t ∧ p t = true := by
  cases o with
  | next t => exact ⟨t, rfl, h⟩
  | fault r => simp [answers] at h
  | refused r => simp [answers] at h

/-- CD-1, DATA(1, "AB"). -/
def cd1 : Frame := #v[0xAA, 0x01, 0x00, 0x02, 0x41, 0x42, 0, 0, 0, 0, 0, 0, 0xC6, 0x2D, 0x55]
/-- CD-5, ACK(1). -/
def cd5 : Frame := #v[0xAA, 0x01, 0x01, 0x00, 0, 0, 0, 0, 0, 0, 0, 0, 0x63, 0x03, 0x55]
/-- CD-11, NACK(1, 04). -/
def cd11 : Frame := #v[0xAA, 0x01, 0x02, 0x01, 0x04, 0, 0, 0, 0, 0, 0, 0, 0x36, 0x82, 0x55]
/-- CD-12, RESET(0). -/
def cd12 : Frame := #v[0xAA, 0x00, 0x03, 0x00, 0, 0, 0, 0, 0, 0, 0, 0, 0x65, 0xC0, 0x55]
/-- VP-10, CD-1 with a wrong CRC. -/
def vp10 : Frame := #v[0xAA, 0x01, 0x00, 0x02, 0x41, 0x42, 0, 0, 0, 0, 0, 0, 0xC6, 0x2C, 0x55]
/-- VP-4, type 4. -/
def vp4 : Frame := #v[0xAA, 0x01, 0x04, 0x02, 0x41, 0x42, 0, 0, 0, 0, 0, 0, 0x6B, 0x18, 0x55]
/-- VP-7, length 9. -/
def vp7 : Frame := #v[0xAA, 0x01, 0x00, 0x09, 0x41, 0x42, 0, 0, 0, 0, 0, 0, 0xC2, 0x96, 0x55]
/-- VP-2, wrong stop byte. -/
def vp2 : Frame := #v[0xAA, 0x01, 0x00, 0x02, 0x41, 0x42, 0, 0, 0, 0, 0, 0, 0xC6, 0x2D, 0x54]
/-- IN-5, ACK(1) with a wrong CRC. -/
def in5 : Frame := #v[0xAA, 0x01, 0x01, 0x00, 0, 0, 0, 0, 0, 0, 0, 0, 0x63, 0xFC, 0x55]

/-- A data field of zeros. -/
def noData : Payload := #v[0, 0, 0, 0, 0, 0, 0, 0]
/-- The data field of CD-1. -/
def dataAB : Payload := #v[0x41, 0x42, 0, 0, 0, 0, 0, 0]
/-- The data field of CD-11. -/
def data04 : Payload := #v[0x04, 0, 0, 0, 0, 0, 0, 0]

/-! ## WellFormed refuses an ill-formed term at each check -/

/-- R82, DATA: length 9 (VP-7). -/
theorem test_wf_data_length : ¬ (Instr.data 1 9 dataAB 0xC296).WellFormed := by decide +kernel
/-- R82, ACK: length 1 (VP-8). -/
theorem test_wf_ack_length : ¬ (Instr.ack 1 1 noData 0x8820).WellFormed := by decide +kernel
/-- R82, NACK: length 0 (CD-13). -/
theorem test_wf_nack_length : ¬ (Instr.nack 5 0 noData 0x838B).WellFormed := by decide +kernel
/-- R82, RESET: length 1. -/
theorem test_wf_reset_length : ¬ (Instr.reset 0 1 noData 0x65C0).WellFormed := by decide +kernel
/-- R84: the CRC, for each type (VP-10 and IN-5 among them). -/
theorem test_wf_crc :
    ¬ (Instr.data 1 2 dataAB 0xC62C).WellFormed ∧ ¬ (Instr.ack 1 0 noData 0x63FC).WellFormed ∧
    ¬ (Instr.nack 1 1 data04 0x3683).WellFormed ∧ ¬ (Instr.reset 0 0 noData 0x65C1).WellFormed := by
  decide +kernel
/-- R88: n is one byte. -/
theorem test_wf_crc16_count : ¬ (Instr.crc16 (List.replicate 256 0)).WellFormed := by decide +kernel
/-- R88: len is one byte. -/
theorem test_wf_prepare_count : ¬ (Instr.prepare 0 1 (List.replicate 256 0)).WellFormed := by decide +kernel

/-! ## Decoding, from words written out from the spec -/

/-- The four packet types (R80, R81): CD-1, CD-5, CD-11, CD-12. -/
theorem test_decode_frames :
    decode (.frame cd1) = .instr (.data 1 2 dataAB 0xC62D) ∧
    decode (.frame cd5) = .instr (.ack 1 0 noData 0x6303) ∧
    decode (.frame cd11) = .instr (.nack 1 1 data04 0x3682) ∧
    decode (.frame cd12) = .instr (.reset 0 0 noData 0x65C0) := by decide +kernel
/-- Frames that are no packet: VP-1's start byte, VP-2's stop byte, VP-4's type. -/
theorem test_decode_frames_refused :
    decode (.frame (cd1.set 0 0xAB)) = .error .badStartByte ∧
    decode (.frame vp2) = .error .badStopByte ∧
    decode (.frame vp4) = .error (.notAPacketType 4) := by decide +kernel
/-- Commands with a time (R88, R90): program P7's TICK 10160, SQ-7's SEND_RESET 100, SQ-10's RESET_NUMBERING 300. -/
theorem test_decode_time_commands :
    decode (.command [0x01, 0x00, 0x00, 0x27, 0xB0]) = .instr (.tick 10160) ∧
    decode (.command [0x02, 0x00, 0x00, 0x00, 0x64]) = .instr (.sendReset 100) ∧
    decode (.command [0x03, 0x00, 0x00, 0x01, 0x2C]) = .instr (.resetNumbering 300) := by decide +kernel
/-- Commands without a time (R88): CRC-13, CRC-12's form, CD-15, CD-20. -/
theorem test_decode_codec_commands :
    decode (.command [0x10, 0x00]) = .instr (.crc16 []) ∧
    decode (.command [0x10, 0x02, 0x31, 0x32]) = .instr (.crc16 [0x31, 0x32]) ∧
    decode (.command [0x11, 0x00, 0x01, 0x02, 0x41, 0x42]) = .instr (.prepare 0 1 [0x41, 0x42]) ∧
    decode (.command [0x12, 0xAA, 0x00, 0x03, 0x00, 0, 0, 0, 0, 0, 0, 0, 0, 0x65, 0xC0, 0x55]) =
      .instr (.validate cd12) := by decide +kernel
/-- Command bytes that are no whole command (R88, R89). -/
theorem test_decode_commands_refused :
    decode (.command [0x00]) = .error (.reservedCommand 0x00) ∧
    decode (.command [0x13]) = .error (.reservedCommand 0x13) ∧
    decode (.command [0x01, 0x00, 0x00]) = .error .incompleteCommand ∧
    decode (.command [0x10, 0x01, 0x41, 0x42]) = .error .trailingBytes := by decide +kernel
/-- The eight selectors (R91): bit 2 the machine, bits 1 and 0 the state. -/
theorem test_decode_selectors :
    decode (.selector 0b000) = .instr .outReadData ∧ decode (.selector 0b001) = .instr .outSendPackage ∧
    decode (.selector 0b010) = .instr .outWaitForAckOrNack ∧ decode (.selector 0b011) = .instr .outCorrupt ∧
    decode (.selector 0b100) = .instr .inWaitForStartByte ∧ decode (.selector 0b101) = .instr .inReadIncomingData ∧
    decode (.selector 0b110) = .instr .inProcessIncomingData ∧ decode (.selector 0b111) = .instr .inCorrupt := by
  decide +kernel

/-- Table words of each format: a frame of zeros but for its markers and type NACK, a TICK of time 0, a selector. -/
theorem test_table_words :
    decodeTableWord 120 (0xAA + 0x02 * 2 ^ 16 + 0x55 * 2 ^ 112) = some (.nack 0 0 noData 0) ∧
    decodeTableWord 40 0x01 = some (.tick 0) ∧ decodeTableWord 8 0x10 = some (.crc16 []) ∧
    decodeTableWord 8 0b101 = some .inReadIncomingData ∧ decodeTableWord 3 0b010 = some .outWaitForAckOrNack ∧
    decodeTableWord 8 0x02 = some (.sendReset 0) ∧ decodeTableWord 8 0x13 = none := by decide +kernel
/-- A step runs the table word placed: TICK 10160 (P7) begins, a command byte does not reach a frame. -/
theorem test_withFetchWord_tick :
    answers (step (base.withFetchWord 40 0xB027000001)) (fun t =>
      t.now = 10160 ∧ t.phase = .running .outgoing 0 ∧ t.cmd = []) = true := by decide +kernel
/-- A step runs the frame placed (CD-5 with OPN = 1). -/
theorem test_withFetchWord_ack :
    answers (step (base.withFetchWord 120 0x5503630000000000000000000101AA)) (fun t =>
      t.pq = [⟨.ack, 1, none⟩]) = true := by decide +kernel
/-- A step runs the transition placed: corrupt incoming state. -/
theorem test_withFetchWord_selector :
    answers (step (base.withFetchWord 8 7)) (fun t => t.diag = [.corruptState .incoming] ∧ t.ist = 0) = true := by
  decide +kernel

/-! ## The CRC and the codec -/

/-- CRC-1, CRC-2, CRC-3. -/
theorem test_crcStep : crcStep 0xFFFF 0x00 = 0xE1F0 ∧ crcStep 0xFFFF 0xFF = 0xFF00 ∧ crcStep 0xFFFF 0x01 = 0xF1D1 := by
  decide +kernel
/-- CRC-8, CRC-9. -/
theorem test_crc16 :
    crc16 [0x31, 0x32, 0x33, 0x34, 0x35, 0x36, 0x37, 0x38, 0x39] = 0x29B1 ∧
    crc16 (List.replicate 11 0) = 0xD40F := by decide +kernel
/-- CD-4, DATA(255, 01..08). -/
theorem test_prepare : prepare 0 255 [1, 2, 3, 4, 5, 6, 7, 8] =
    #v[0xAA, 0xFF, 0x00, 0x08, 1, 2, 3, 4, 5, 6, 7, 8, 0x32, 0x57, 0x55] := by decide +kernel
/-- The order of the checks: VP-3, VP-5, VP-6, VP-9. -/
theorem test_validate_order :
    validate ((cd1.set 0 0xAB).set 2 4) = some .invalidFraming ∧
    validate (cd1.set 2 0xFF) = some .invalidType ∧
    validate #v[0xAA, 0x01, 0x04, 0x09, 0x41, 0x42, 0, 0, 0, 0, 0, 0, 0x6F, 0xA3, 0x55] = some .invalidType ∧
    validate (cd1.set 3 3) = some .invalidCrc := by decide +kernel

/-! ## One step of each instruction -/

/-- IN-11: the pad byte 99 is not delivered. -/
theorem test_data_new :
    answers (exec (.data 1 1 #v[0x41, 0x99, 0, 0, 0, 0, 0, 0] 0xE128) (running .incoming)) (fun t =>
      t.pi.bytes = [0x41] ∧ t.lipn = 1 ∧ t.eo.bytes = cd5.toList ∧ t.ist = 0) = true := by decide +kernel
/-- IN-7: packet number 0 is a duplicate; ACK(0) is CD-6. -/
theorem test_data_duplicate :
    answers (exec (.data 0 1 #v[0x5A, 0, 0, 0, 0, 0, 0, 0] 0x6534) (running .incoming)) (fun t =>
      t.pi.bytes = [] ∧ t.lipn = 0 ∧
      t.eo.bytes = [0xAA, 0x00, 0x01, 0, 0, 0, 0, 0, 0, 0, 0, 0, 0xBB, 0x4A, 0x55]) = true := by decide +kernel
/-- SQ-4, TICK 30 and TICK 40: the fifth entry is lost. -/
theorem test_ack_overflow :
    answers (exec (.ack 1 0 noData 0x6303) { running .incoming with pq := List.replicate 4 ⟨.ack, 1, none⟩ }) (fun t =>
      t.pqLen = 4 ∧ t.diag = [.queueOverflow .ack 1]) = true := by decide +kernel
/-- OUT-5: an ACK that is not numbered OPN is ignored. -/
theorem test_ack_stale :
    answers (exec (.ack 1 0 noData 0x6303) { running .incoming with opn := 2, now := 9 }) (fun t =>
      t.pq = [] ∧ t.silMark = 9) = true := by decide +kernel
/-- IN-16. -/
theorem test_nack_queued :
    answers (exec (.nack 1 1 data04 0x3682) (running .incoming)) (fun t =>
      t.pq = [⟨.nack, 1, some 0x04⟩] ∧ t.eo.bytes = []) = true := by decide +kernel
/-- IN-8: a RESET numbered 7. -/
theorem test_reset_any_number :
    answers (exec (.reset 7 0 noData 0x4C7D) { running .incoming with opn := 9, lipn := 40 }) (fun t =>
      t.opn = 1 ∧ t.lipn = 0 ∧
      t.eo.bytes = [0xAA, 0x00, 0x01, 0, 0, 0, 0, 0, 0, 0, 0, 0, 0xBB, 0x4A, 0x55]) = true := by decide +kernel

/-- SQ-6: 10000 ms of silence. -/
theorem test_tick_silence :
    answers (exec (.tick 10000) { base with opn := 5 }) (fun t =>
      t.opn = 1 ∧ t.silMark = 10000 ∧ t.diag = [.silenceReset]) = true := by decide +kernel
/-- SQ-6: 9999 ms are not enough. -/
theorem test_tick_no_silence :
    answers (exec (.tick 9999) { base with opn := 5 }) (fun t => t.opn = 5 ∧ t.diag = [] ∧ t.now = 9999) = true := by
  decide +kernel
/-- SQ-7. -/
theorem test_sendReset_written :
    answers (exec (.sendReset 100) { base with opn := 4 }) (fun t =>
      t.resp = [0x00] ∧ t.eo.bytes = cd12.toList ∧ t.opn = 1 ∧ t.silMark = 100) = true := by decide +kernel
/-- SQ-8: 14 bytes free. -/
theorem test_sendReset_no_room :
    answers (exec (.sendReset 100) { base with opn := 4, eo := ⟨List.replicate 6 0, 20⟩ }) (fun t =>
      t.resp = [0x01] ∧ t.eo.bytes.length = 6 ∧ t.diag = [.bufferFull .eo] ∧ t.opn = 1) = true := by decide +kernel
/-- SQ-14. -/
theorem test_resetNumbering :
    answers (exec (.resetNumbering 5000) { base with opn := 7, lipn := 9, ost := 2, pq := [⟨.ack, 7, none⟩] })
      (fun t => t.opn = 1 ∧ t.lipn = 0 ∧ t.ost = 0 ∧ t.pqLen = 0 ∧ t.silMark = 5000 ∧ t.resp = [0x00]) = true := by
  decide +kernel
/-- CRC-12, CRC-13. -/
theorem test_crc16_command :
    answers (exec (.crc16 [0x31, 0x32, 0x33, 0x34, 0x35, 0x36, 0x37, 0x38, 0x39]) base) (fun t =>
      t.resp = [0x29, 0xB1]) = true ∧
    answers (exec (.crc16 []) base) (fun t => t.resp = [0xFF, 0xFF]) = true := by decide +kernel
/-- CD-15, CD-19 (CD-13: not refused). -/
theorem test_prepare_command :
    answers (exec (.prepare 0 1 [0x41, 0x42]) base) (fun t => t.resp = cd1.toList) = true ∧
    answers (exec (.prepare 2 5 []) base) (fun t =>
      t.resp = [0xAA, 0x05, 0x02, 0, 0, 0, 0, 0, 0, 0, 0, 0, 0x83, 0x8B, 0x55]) = true := by decide +kernel
/-- CD-17, CD-18. -/
theorem test_prepare_refused :
    answers (exec (.prepare 4 1 []) base) (fun t => t.resp = [0xFF]) = true ∧
    answers (exec (.prepare 0 1 (List.replicate 9 0)) base) (fun t => t.resp = [0xFF]) = true := by decide +kernel
/-- CD-20, CD-21's verdict on VP-10. -/
theorem test_validate_command :
    answers (exec (.validate cd12) base) (fun t => t.resp = [0x01, 0x00]) = true ∧
    answers (exec (.validate vp10) base) (fun t => t.resp = [0x00, 0x04]) = true := by decide +kernel

/-- P1, TICK 0: the second byte does not restart the timer. -/
theorem test_outReadData_drains :
    answers (exec .outReadData { running .outgoing with
        po := ⟨[0x42], 64⟩, ocnt := 1, obuf := noData.set 0 0x41, oreadMark := 3, now := 9 }) (fun t =>
      t.obuf.toList.take 2 = [0x41, 0x42] ∧ t.ocnt = 2 ∧ t.oreadMark = 3 ∧ t.po.bytes = []) = true := by decide +kernel
/-- OUT-3: 99 ms are not enough. -/
theorem test_outReadData_waits :
    answers (exec .outReadData { running .outgoing with ocnt := 1, now := 99 }) (fun t =>
      t.ost = 0 ∧ t.ocnt = 1 ∧ t.phase = .running .incoming 0) = true := by decide +kernel
/-- P1, TICK 100. -/
theorem test_outSendPackage :
    answers (exec .outSendPackage { running .outgoing with ost := 1, ocnt := 2, obuf := dataAB, now := 100 }) (fun t =>
      t.eo.bytes = cd1.toList ∧ t.oackMark = 100 ∧ t.ost = 2 ∧ t.ocnt = 2) = true := by decide +kernel
/-- OUT-7: 14 bytes free. -/
theorem test_outSendPackage_no_room :
    answers (exec .outSendPackage { running .outgoing with
        ost := 1, ocnt := 1, eo := ⟨List.replicate 50 0, 64⟩ }) (fun t =>
      t.ost = 1 ∧ t.diag = [.bufferFull .eo] ∧ t.phase = .running .incoming 0) = true := by decide +kernel
/-- SQ-2 and P6: the ACK of 255. -/
theorem test_outWait_wraps :
    answers (exec .outWaitForAckOrNack { running .outgoing with
        ost := 2, ocnt := 1, opn := 255, lipn := 200, pq := [⟨.ack, 255, none⟩] }) (fun t =>
      t.opn = 1 ∧ t.lipn = 0 ∧ t.ost = 0 ∧ t.ocnt = 0) = true := by decide +kernel
/-- P3, TICK 3100: abandoned, OPN stays. -/
theorem test_outWait_abandons :
    answers (exec .outWaitForAckOrNack { running .outgoing with
        ost := 2, ocnt := 1, oretry := 5, oackMark := 2600, now := 3100 }) (fun t =>
      t.opn = 1 ∧ t.oretry = 0 ∧ t.ocnt = 0 ∧ t.ost = 0 ∧ t.diag = [.maxRetriesExceeded 1]) = true := by decide +kernel
/-- OUT-8. -/
theorem test_outCorrupt :
    answers (exec .outCorrupt { running .outgoing with ost := 3, ocnt := 5 }) (fun t =>
      t.ost = 0 ∧ t.ocnt = 0 ∧ t.oretry = 0 ∧ t.diag = [.corruptState .outgoing]) = true := by decide +kernel
/-- IN-1: junk is discarded. -/
theorem test_inWait_discards :
    answers (exec .inWaitForStartByte { running .incoming with ei := ⟨[0x13, 0xAA], 64⟩ }) (fun t =>
      t.ei.bytes = [0xAA] ∧ t.ist = 0) = true := by decide +kernel
/-- R170: the start byte is not removed. -/
theorem test_inWait_start :
    answers (exec .inWaitForStartByte { running .incoming with ei := ⟨[0xAA, 0x01], 64⟩, now := 7 }) (fun t =>
      t.ei.bytes = [0xAA, 0x01] ∧ t.ist = 1 ∧ t.irxMark = 7) = true := by decide +kernel
/-- IN-1: the fifteenth byte ends the frame. -/
theorem test_inRead_last :
    answers (exec .inReadIncomingData { running .incoming with ist := 1, icnt := 14, ei := ⟨[0x55], 64⟩ }) (fun t =>
      t.ibuf[14] = 0x55 ∧ t.icnt = 15 ∧ t.ist = 2 ∧ t.ei.bytes = []) = true := by decide +kernel
/-- IN-2: 500 ms give the frame up, and no silence mark is set. -/
theorem test_inRead_timeout :
    answers (exec .inReadIncomingData { running .incoming with ist := 1, icnt := 10, now := 500 }) (fun t =>
      t.icnt = 0 ∧ t.ist = 0 ∧ t.silMark = 0) = true := by decide +kernel
/-- IN-5: a damaged ACK is dropped. -/
theorem test_inProcess_drops :
    answers (exec .inProcessIncomingData { processing in5 with now := 8 }) (fun t =>
      t.eo.bytes = [] ∧ t.pq = [] ∧ t.diag = [.invalidFrame .invalidCrc] ∧ t.silMark = 8) = true := by decide +kernel
/-- IN-9: 10 bytes free, the frame is held. -/
theorem test_inProcess_holds :
    answers (exec .inProcessIncomingData { processing cd1 with eo := ⟨List.replicate 10 0, 20⟩ }) (fun t =>
      t.ist = 2 ∧ t.icnt = 15 ∧ t.lipn = 0 ∧ t.pi.bytes = [] ∧ t.diag = [.bufferFull .eo]) = true := by decide +kernel
/-- IN-13. -/
theorem test_inCorrupt :
    answers (exec .inCorrupt { running .incoming with ist := 3, icnt := 7 }) (fun t =>
      t.ist = 0 ∧ t.icnt = 0 ∧ t.diag = [.corruptState .incoming]) = true := by decide +kernel

/-! ## Program lines (30_encoding.md R92, R93) -/

/-- P1 and P7: FRAME 0 1 41 42, ACKF 1, RESETF; the bytes of TICK 10160 and of CRC16 31 32. -/
theorem test_program_bytes :
    pseudoFrame 0 1 [0x41, 0x42] = cd1.toList ∧ pseudoAck 1 = cd5.toList ∧ pseudoReset = cd12.toList ∧
    (Line.tick 10160).commandBytes = [0x01, 0x00, 0x00, 0x27, 0xB0] ∧
    (Line.crc16 [0x31, 0x32]).commandBytes = [0x10, 0x02, 0x31, 0x32] := by decide +kernel
/-- P1: what its host lines do, and an `.expect` that holds. -/
theorem test_program_lines :
    (Line.hostPO [0x41]).inputs base = [.producePO [0x41]] ∧
    Line.drainEO.inputs { base with eo := ⟨cd1.toList, 64⟩ } = [.drainEO 15] ∧
    (Line.expect .eo (.bytes (pseudoFrame 0 1 [0x41, 0x42]))).holds { base with eo := ⟨cd1.toList, 64⟩ } = true ∧
    (Line.expect .opn (.number 2)).holds base = false := by decide +kernel

/-! ## Witnesses: states and operands that meet the hypotheses of the statements

`witness_<Name>` belongs to `Obligations.<Name>`; its clauses stand in the statement's order, at boundary values. -/

/-! ### Encoding and fetch -/

/-- Well-formed instructions with every kind of operand, the longest commands among them. -/
theorem witness_DecodeEncodeAgree :
    (Instr.data 1 2 dataAB 0xC62D).WellFormed ∧ (Instr.ack 1 0 noData 0x6303).WellFormed ∧
    (Instr.nack 1 1 data04 0x3682).WellFormed ∧ (Instr.reset 0 0 noData 0x65C0).WellFormed ∧
    (Instr.tick 0xFFFFFFFF).WellFormed ∧ (Instr.crc16 (List.replicate 255 0)).WellFormed ∧
    (Instr.prepare 2 5 (List.replicate 255 0)).WellFormed ∧ (Instr.validate vp10).WellFormed ∧
    Instr.inCorrupt.WellFormed := by decide +kernel

theorem witness_DecodedFrameIsEncoded :
    decodeFrame vp10 = .instr (.data 1 2 dataAB 0xC62C) ∧ vp10[2].toNat ≤ 3 ∧ ¬ vp4[2].toNat ≤ 3 := by decide +kernel

theorem witness_DecodedCommandIsEncodedHead :
    decodeCommand [0x10, 0x02, 0x41, 0x42, 0x55] = .complete (.crc16 [0x41, 0x42]) [0x55] := by decide +kernel

/-- `base` with the bytes of CRC16 and one byte more in the command stream. -/
def withCommand : State := { base with cmd := [0x10, 0x01, 0x41, 0x13] }

theorem witness_StepRunsDecodedCommand :
    (Instr.crc16 [0x41]).WellFormed ∧ encode (.crc16 [0x41]) = .command [0x10, 0x01, 0x41] ∧
    withCommand.takeInputs.phase = .idle ∧ withCommand.takeInputs.cmd = [0x10, 0x01, 0x41] ++ [0x13] := by
  decide +kernel

theorem witness_StepRunsSelectedTransition :
    (∀ v : BitVec 2, ({ running .outgoing with ost := v }).takeInputs.ost = v ∧
      ({ running .outgoing with ost := v }).takeInputs.phase = .running .outgoing 0) ∧
    (∀ v : BitVec 2, ({ running .incoming with ist := v }).takeInputs.ist = v ∧
      ({ running .incoming with ist := v }).takeInputs.phase = .running .incoming 0) :=
  ⟨fun _ => ⟨rfl, rfl⟩, fun _ => ⟨rfl, rfl⟩⟩

theorem witness_StepProcessesReceivedFrame :
    (processing cd1).takeInputs.phase = .running .incoming 0 ∧ (processing cd1).takeInputs.ist = 2 ∧
    decodeFrame (processing cd1).takeInputs.ibuf = .instr (.data 1 2 dataAB 0xC62D) := by decide +kernel

/-- 0x00 and 0x04 and 0x13 are reserved; type 4 and 9 payload bytes are refused, type 3 and 8 bytes are not. -/
theorem witness_ReservedCommandsRefused :
    (∀ c ∈ [(0x00 : Byte), 0x04, 0x0F, 0x13, 0xFF],
      ({ base with cmd := [c] }).takeInputs.phase = .idle ∧ ({ base with cmd := [c] }).takeInputs.cmd = c :: [] ∧
      c ≠ 0x01 ∧ c ≠ 0x02 ∧ c ≠ 0x03 ∧ c ≠ 0x10 ∧ c ≠ 0x11 ∧ c ≠ 0x12) ∧
    base.phase = .idle ∧ 3 < (4 : Byte).toNat ∧ 8 < (List.replicate 9 (0 : Byte)).length ∧
    (3 : Byte).toNat ≤ 3 ∧ (List.replicate 8 (0 : Byte)).length ≤ 8 := by decide +kernel

theorem witness_IdleBlockHoldsItsState : base.takeInputs.phase = .idle ∧ base.takeInputs.cmd = [] := by decide +kernel

theorem witness_OverlappingCommandsRefused : (running .outgoing).phase ≠ .idle := by decide +kernel

/-! ### CRC and codec -/

theorem witness_PrepareBuildsTheFrame :
    (3 : Byte).toNat ≤ 3 ∧ ([] : List Byte).length ≤ 8 ∧ ([1, 2, 3, 4, 5, 6, 7, 8] : List Byte).length ≤ 8 := by
  decide +kernel

/-- Each half: DATA with 8 bytes, NACK with 1; ACK with 1, NACK with none. -/
theorem witness_ValidatePrepareRoundTrip :
    lengthOk 0 (BitVec.ofNat 8 8) = true ∧ lengthOk 2 (BitVec.ofNat 8 1) = true ∧
    lengthOk 1 (BitVec.ofNat 8 1) = false ∧ lengthOk 2 (BitVec.ofNat 8 0) = false := by decide +kernel

/-- CD-1 with one flip of each clause: the first bit and the last, a high and a low type bit, a length bit that keeps the
length legal and one that does not, the first and the last bit of the CRC. -/
theorem witness_SingleBitFlipIsRejected :
    validate cd1 = none ∧
    validate (flipBit cd1 0) = some .invalidFraming ∧ validate (flipBit cd1 119) = some .invalidFraming ∧
    validate (flipBit cd1 18) = some .invalidType ∧ validate (flipBit cd1 23) = some .invalidType ∧
    validate (flipBit cd1 17) = some .invalidLength ∧ validate (flipBit cd1 8) = some .invalidCrc ∧
    validate (flipBit cd1 24) = some .invalidCrc ∧ validate (flipBit cd1 31) = some .invalidLength ∧
    validate (flipBit cd1 96) = some .invalidCrc ∧ validate (flipBit cd1 111) = some .invalidCrc := by decide +kernel

/-- Type 0 with a pad byte that is not zero (VP-12) is well-formed, with the CRC of VP-10 it is not. -/
theorem witness_WellFormedFramesValidate :
    (0 : Byte).toNat ≤ 3 ∧ FrameWellFormed 0 1 1 #v[0x41, 0x99, 0, 0, 0, 0, 0, 0] 0xE128 ∧
    ¬ FrameWellFormed 0 1 2 dataAB 0xC62C := by decide +kernel

/-- Each of the five results. -/
theorem witness_ValidateReportsFirstFailure :
    validate vp2 = some .invalidFraming ∧ validate vp4 = some .invalidType ∧ validate vp7 = some .invalidLength ∧
    validate vp10 = some .invalidCrc ∧ validate cd1 = none := by decide +kernel

theorem witness_NackCodeIsInjective : nackCode .invalidCrc = nackCode .invalidCrc := rfl

/-- SQ-11: the difference wraps. -/
theorem witness_ElapsedIsModular :
    ({ base with now := 0x54 }).elapsed 0xFFFFFFF0 = 100 ∧ ({ base with now := 0x54 }).expired 0xFFFFFFF0 100 = true ∧
    ({ base with now := 0x54 }).expired 0xFFFFFFF0 101 = false := by decide +kernel

/-! ### Commands -/

theorem witness_Crc16CommandResult : base.phase = .idle := rfl

theorem witness_PrepareCommandResult :
    base.phase = .idle ∧ (3 : Byte).toNat ≤ 3 ∧ (List.replicate 8 (0 : Byte)).length ≤ 8 ∧ 3 < (4 : Byte).toNat ∧
    8 < (List.replicate 9 (0 : Byte)).length := by decide +kernel

theorem witness_ValidateCommandResult :
    base.phase = .idle ∧ validate cd1 = none ∧ validate vp2 = some .invalidFraming ∧
    validate vp4 = some .invalidType ∧ validate vp7 = some .invalidLength ∧ validate vp10 = some .invalidCrc := by
  decide +kernel

/-- `base` with `free` bytes free in EO. -/
def withEoFree (s : State) (free : Nat) : State := { s with eo := ⟨[], free⟩ }

theorem witness_SendResetCommandResult :
    base.phase = .idle ∧ 15 ≤ (withEoFree base 15).eo.availableForWrite ∧
    (withEoFree base 14).eo.availableForWrite < 15 := by decide +kernel

theorem witness_ResetNumberingCommandResult : base.phase = .idle := rfl

theorem witness_TickBeginsWithSilenceCheck :
    base.phase = .idle ∧ 10000 ≤ ((10000 : Time) - base.silMark).toNat ∧
    ((9999 : Time) - base.silMark).toNat < 10000 := by decide +kernel

theorem witness_TickRunsItsPseudocode :
    ({ base with cmd := [0x01, 0x00, 0x00, 0x00, 0x64] }).phase = .idle ∧
    ({ base with cmd := [0x01, 0x00, 0x00, 0x00, 0x64] }).schedule = [] ∧
    ({ base with cmd := [0x01, 0x00, 0x00, 0x00, 0x64] }).cmd = 0x01 :: (bytesOfTime 100 ++ []) := by decide +kernel

/-- Idle; running the other machine; the counts 15 and 16 of each machine. -/
theorem witness_SchedulerCountsTransitions :
    base.phase = .idle ∧ (running .incoming).phase = .running .incoming 0 ∧ MachineId.incoming ≠ .outgoing ∧
    ({ base with phase := .running .incoming 15 }).phase = .running .incoming 15 ∧ 15 + 1 < 17 ∧
    ({ base with phase := .running .outgoing 16 }).phase = .running .outgoing 16 ∧
    ({ base with phase := .running .incoming 16 }).phase = .running .incoming 16 ∧ 17 ≤ 16 + 1 := by decide +kernel

/-! ### The outgoing machine -/

/-- OCNT 7 with a byte; OCNT 8 with a byte left in PO, at 100 and at 99 ms; OCNT 0 with none. -/
theorem witness_ReadDataTransition :
    ({ base with po := ⟨[0x41], 64⟩, ocnt := 7 }).po.bytes = 0x41 :: [] ∧
    ({ base with po := ⟨[0x41], 64⟩, ocnt := 7 }).ocnt.toNat < 8 ∧
    8 ≤ ({ base with po := ⟨[0x41], 64⟩, ocnt := 8, now := 100 }).ocnt.toNat ∧
    100 ≤ (({ base with ocnt := 8, now := 100 }).now - ({ base with ocnt := 8, now := 100 }).oreadMark).toNat ∧
    (({ base with ocnt := 8, now := 99 }).now - ({ base with ocnt := 8, now := 99 }).oreadMark).toNat < 100 ∧
    base.po.bytes = [] ∧ base.ocnt = 0 := by decide +kernel

theorem witness_SendPackageTransition :
    (withEoFree base 14).eo.availableForWrite < 15 ∧ 15 ≤ (withEoFree base 15).eo.availableForWrite ∧
    ({ withEoFree base 15 with ocnt := 8 }).ocnt.toNat ≤ 8 := by decide +kernel

/-- The queue of OUT-6 and of P6; NACKs with ORETRY 4 and 5; a stale entry; the timer at 500 and 499 ms, ORETRY 4 and 5. -/
theorem witness_WaitTransition :
    (({ base with pq := [⟨.ack, 1, none⟩] }).pq = ⟨.ack, base.opn, none⟩ :: [] ∧ base.opn ≠ 255) ∧
    (({ base with opn := 255, pq := [⟨.ack, 255, none⟩] }).pq = ⟨.ack, 255, none⟩ :: [] ∧
      ({ base with opn := 255 }).opn = 255) ∧
    (({ base with pq := [⟨.nack, 1, some 4⟩] }).pq = ⟨.nack, base.opn, some 4⟩ :: [] ∧
      ({ base with oretry := 4 }).oretry.toNat < 5 ∧ 5 ≤ ({ base with oretry := 5 }).oretry.toNat) ∧
    (({ base with pq := [⟨.ack, 2, none⟩] }).pq = ⟨.ack, 2, none⟩ :: [] ∧ (2 : Byte) ≠ base.opn) ∧
    (base.pq = [] ∧ 500 ≤ (({ base with now := 500 }).now - base.oackMark).toNat ∧
      (({ base with now := 499 }).now - base.oackMark).toNat < 500) := by decide +kernel

/-- OCNT 9 with 15 bytes free, which faults; ICNT 15 with a byte. -/
theorem witness_OutOfRangeCounts :
    15 ≤ (withEoFree base 15).eo.availableForWrite ∧ 8 < ({ withEoFree base 15 with ocnt := 9 }).ocnt.toNat ∧
    ({ base with ei := ⟨[0x41], 64⟩, icnt := 15 }).ei.bytes = 0x41 :: [] ∧
    ({ base with ei := ⟨[0x41], 64⟩, icnt := 15 }).icnt = 15 := by decide +kernel

theorem witness_OutOfRangeCounts_fault :
    exec .outSendPackage { withEoFree base 15 with ocnt := 9 } = .fault .ocntBeyondBuffer := rfl

/-- A packet about to be sent for the first time, and attempts answered by a NACK and by nothing. -/
def toSend : State := { base with ost := 1, ocnt := 8 }
/-- Answered by a NACK. -/
def nacked : Attempt := ⟨⟨[], 15⟩, 0, 0, some 4⟩
/-- Answered by nothing for 500 ms. -/
def timedOut : Attempt := ⟨⟨[], 15⟩, 0, 500, none⟩

theorem witness_RetryBoundIsSixIdenticalFrames :
    toSend.ost = 1 ∧ toSend.oretry = 0 ∧ toSend.ocnt.toNat ≤ 8 ∧ toSend.pq = [] ∧
    (∀ a ∈ [nacked, timedOut, timedOut, nacked, timedOut, nacked], a.Unanswered) ∧
    [nacked, timedOut, timedOut, nacked, timedOut, nacked].length ≤ 6 :=
  ⟨rfl, rfl, by decide, rfl, by simp [nacked, timedOut, Attempt.Unanswered, Port.availableForWrite], by decide⟩

/-- A step that takes an ACK (254 and 255), a step that resets (SEND_RESET), a step that leaves OPN. -/
theorem witness_OpnChangesOnlyOnAckOrReset :
    answers (step { running .outgoing with ost := 2, ocnt := 1, opn := 254, pq := [⟨.ack, 254, none⟩] })
      (fun t => t.opn = 255) = true ∧
    answers (step { running .outgoing with ost := 2, ocnt := 1, opn := 255, pq := [⟨.ack, 255, none⟩] })
      (fun t => t.opn = 1) = true ∧
    answers (step { base with opn := 7, cmd := [0x02, 0x00, 0x00, 0x00, 0x64] }) (fun t => t.opn = 1) = true ∧
    answers (step { base with opn := 7 }) (fun t => t.opn = 7) = true := by decide +kernel

/-- SQ-9, the last place in a TICK with room for both transitions. -/
def earlyAck : State :=
  { base with phase := .running .outgoing 15, ost := 1, ocnt := 1, pq := [⟨.ack, 1, none⟩] }

theorem witness_EarlyAckAcknowledgesAtOnce :
    earlyAck.schedule = [] ∧ earlyAck.phase = .running .outgoing 15 ∧ 15 + 2 ≤ 17 ∧ earlyAck.ost = 1 ∧
    earlyAck.ocnt.toNat ≤ 8 ∧ 15 ≤ earlyAck.eo.availableForWrite ∧ earlyAck.pq = ⟨.ack, earlyAck.opn, none⟩ :: [] := by
  decide +kernel

/-! ### The incoming machine -/

theorem witness_WaitForStartByteTransition :
    base.ei.bytes = [] ∧ ({ base with ei := ⟨[0xAB], 64⟩ }).ei.bytes = 0xAB :: [] ∧ (0xAB : Byte) ≠ 0xAA ∧
    ({ base with ei := ⟨[0xAA], 64⟩ }).ei.bytes = 0xAA :: [] := by decide +kernel

/-- ICNT 13 and 14 with a byte; 500 and 499 ms with none. -/
theorem witness_ReadIncomingTransition :
    ({ running .incoming with ist := 1 }).ist = 1 ∧
    ({ running .incoming with ei := ⟨[0x55], 64⟩ }).ei.bytes = 0x55 :: [] ∧
    ({ running .incoming with icnt := 13 }).icnt.toNat < 14 ∧ ({ running .incoming with icnt := 14 }).icnt = 14 ∧
    base.ei.bytes = [] ∧ 500 ≤ (({ base with now := 500 }).now - base.irxMark).toNat ∧
    (({ base with now := 499 }).now - base.irxMark).toNat < 500 := by decide +kernel

/-- DATA(1) with LIPN 0 and PI room for exactly its two bytes; the same with LIPN 1. -/
theorem witness_ValidDataReceipt :
    (Instr.data 1 2 dataAB 0xC62D).WellFormed ∧ 15 ≤ (withEoFree base 15).eo.availableForWrite ∧
    base.lipn.toNat < (1 : Byte).toNat ∧ (2 : Byte).toNat ≤ ({ base with pi := ⟨[], 2⟩ }).pi.availableForWrite ∧
    (1 : Byte).toNat ≤ ({ base with lipn := 1 }).lipn.toNat := by decide +kernel

/-- ACK(1) and NACK(1) with OPN 1 and with OPN 2; three and four queued responses. -/
theorem witness_ValidAckOrNackReceipt :
    (Instr.ack 1 0 noData 0x6303).WellFormed ∧ (Instr.nack 1 1 data04 0x3682).WellFormed ∧ (1 : Byte) = base.opn ∧
    (1 : Byte) ≠ ({ base with opn := 2 }).opn ∧
    ({ base with pq := List.replicate 3 ⟨.ack, 1, none⟩ }).pq.length < 4 ∧
    ({ base with pq := List.replicate 4 ⟨.ack, 1, none⟩ }).pq.length = 4 := by decide +kernel

theorem witness_ValidResetReceipt :
    (Instr.reset 0 0 noData 0x65C0).WellFormed ∧ (Instr.reset 7 0 noData 0x4C7D).WellFormed ∧
    15 ≤ (withEoFree base 15).eo.availableForWrite := by decide +kernel

/-- A damaged DATA frame and a damaged ACK. -/
theorem witness_InvalidFrameReceipt :
    validate (processing vp10).ibuf = some .invalidCrc ∧ (processing vp10).ibuf[2] = 0 ∧
    15 ≤ (withEoFree (processing vp10) 15).eo.availableForWrite ∧
    validate (processing in5).ibuf = some .invalidCrc ∧ (processing in5).ibuf[2] ≠ 0 := by decide +kernel

/-- EO with 14 bytes free; PI with one byte free and two to deliver; a DATA frame with a wrong stop byte. -/
theorem witness_NoRoomHoldsTheFrame :
    (withEoFree base 14).eo.availableForWrite < 15 ∧ (Instr.reset 0 0 noData 0x65C0).WellFormed ∧
    (Instr.data 1 2 dataAB 0xC62D).WellFormed ∧ 15 ≤ (withEoFree base 15).eo.availableForWrite ∧
    base.lipn.toNat < (1 : Byte).toNat ∧ ({ base with pi := ⟨[], 1⟩ }).pi.availableForWrite < (2 : Byte).toNat ∧
    validate (processing vp2).ibuf = some .invalidFraming ∧ (processing vp2).ibuf[2] = 0 ∧
    (withEoFree (processing vp2) 14).eo.availableForWrite < 15 := by
  decide +kernel

/-- Room for exactly the reply and the delivery of CD-1; a RESET; an ACK, which needs neither; EO one byte short; PI one byte
short. -/
theorem witness_ProcessingIsAllOrNothing :
    (frameAction (processing cd1) cd1).reply.isSome = true ∧
    (frameAction (processing cd1) cd1).deliver = some [0x41, 0x42] ∧
    15 ≤ (withEoFree base 15).eo.availableForWrite ∧ (withEoFree base 14).eo.availableForWrite < 15 ∧
    2 ≤ ({ base with pi := ⟨[], 2⟩ }).pi.availableForWrite ∧ ({ base with pi := ⟨[], 1⟩ }).pi.availableForWrite < 2 ∧
    (frameAction (processing cd12) cd12).doReset = true ∧
    (frameAction (processing cd5) cd5).reply = none ∧ (frameAction (processing cd5) cd5).deliver = none ∧
    (frameAction (processing cd5) cd5).doReset = false := by decide +kernel

theorem witness_ProcessingIsTheFrameInstruction :
    decodeFrame (processing cd11).ibuf = .instr (.nack 1 1 data04 0x3682) := by decide +kernel

/-! ### The whole machine -/

/-- A state inside a TICK, a frame half read. -/
def midRun : State :=
  { running .incoming with
    opn := 3, lipn := 2, ost := 2, ocnt := 8, oretry := 5, ist := 1, icnt := 1, ibuf := cd1
    pq := [⟨.nack, 3, some 4⟩], ei := ⟨[0x01], 64⟩ }

theorem midRun_R37 : R37 midRun := by decide +kernel

theorem midRun_inv : Inv midRun where
  r37 := midRun_R37
  receive := by decide +kernel
  start := by decide +kernel
  streams := by decide +kernel
  reasons := by decide +kernel
  phase := by
    intro m n h
    simp only [midRun, running, Phase.running.injEq] at h
    have : n = 0 := h.2.symm
    subst this
    decide

theorem midRun_steps : ∃ t, step midRun = .next t ∧ decide (t.icnt = 2 ∧ t.ei.bytes = []) = true :=
  answers_next (p := fun t => decide (t.icnt = 2 ∧ t.ei.bytes = [])) (by decide +kernel)

theorem witness_StepKeepsR37 : ∃ t, R37 midRun ∧ step midRun = .next t :=
  midRun_steps.elim fun t h => ⟨t, midRun_R37, h.1⟩

theorem witness_StepKeepsInvariant : ∃ t, Inv midRun ∧ step midRun = .next t :=
  midRun_steps.elim fun t h => ⟨t, midRun_inv, h.1⟩

/-- A frame half read, and the one state of READ_INCOMING_DATA that R37 admits and `Inv` does not. -/
theorem witness_StepNeverStops : R37 midRun ∧ R37 { midRun with icnt := 15 } := ⟨midRun_R37, by decide +kernel⟩

theorem witness_PowerOnResetsRegistersOnly :
    ({ midRun with schedule := [[.por 50], []] }).schedule = [.por 50] :: [[]] ∧
    ({ midRun with schedule := [[.por 50], []] }).cmd = [] := by decide +kernel

/-- SEND_PACKAGE with OCNT above 8. -/
def tooMany : State := { running .outgoing with ost := 1, ocnt := 9 }

/-- `midRun` with other contents beyond ICNT, and its step. -/
theorem witness_UnspecifiedContentsAreNeverRead :
    ∃ t, (midRun.ist = 2 → midRun.icnt = 15) ∧ AgreeOnDefined midRun { midRun with ibuf := cd1.set 1 0x77 } ∧
      step midRun = .next t :=
  midRun_steps.elim fun t h =>
    ⟨t, by decide, ⟨rfl, rfl, by decide +kernel, fun _ => rfl, fun _ => rfl, fun _ => rfl⟩, h.1⟩

/-- A state that faults, with another OACK_MARK, which SEND_PACKAGE does not read. -/
theorem witness_UnspecifiedContentsAreNeverRead_fault :
    (tooMany.ist = 2 → tooMany.icnt = 15) ∧ AgreeOnDefined tooMany { tooMany with oackMark := 77 } ∧
    step tooMany = .fault .ocntBeyondBuffer :=
  ⟨by decide, ⟨rfl, rfl, rfl, fun _ => rfl, fun h => absurd h (by decide), fun _ => rfl⟩, rfl⟩

/-- The step of a fault: DIAG makes no difference to it either. -/
theorem witness_DiagIsNeverRead :
    (∃ t, step midRun = .next t) ∧
    step tooMany = .fault .ocntBeyondBuffer :=
  ⟨midRun_steps.elim fun t h => ⟨t, h.1⟩, rfl⟩

/-- A step that writes a frame, into exactly 15 free bytes, and one that writes none. -/
theorem witness_EoGainsOnlyValidFrames :
    answers (step { withEoFree (running .outgoing) 15 with ost := 1, ocnt := 2, obuf := dataAB })
      (fun t => t.eo.bytes = cd1.toList) = true ∧
    answers (step { withEoFree (running .outgoing) 14 with ost := 1, ocnt := 2, obuf := dataAB })
      (fun t => t.eo.bytes = []) = true := by decide +kernel

/-- A step that delivers into exactly two free bytes, one that has no room, one whose DATA is a duplicate. -/
theorem witness_PiGainsOnlyNewPayloads :
    answers (step { processing cd1 with pi := ⟨[], 2⟩ }) (fun t => t.pi.bytes = [0x41, 0x42] ∧ t.lipn = 1) = true ∧
    answers (step { processing cd1 with pi := ⟨[], 1⟩ }) (fun t => t.pi.bytes = []) = true ∧
    answers (step { processing cd1 with lipn := 1 }) (fun t => t.pi.bytes = []) = true := by decide +kernel

/-- A step that reads PO, one that reads EI, one that reads neither. -/
theorem witness_StepReadsAtMostOneByte :
    answers (step { running .outgoing with po := ⟨[0x41, 0x42], 64⟩ }) (fun t => t.po.bytes = [0x42]) = true ∧
    answers (step midRun) (fun t => t.ei.bytes = []) = true ∧
    answers (step (running .outgoing)) (fun t => t.po.bytes = [] ∧ t.ei.bytes = []) = true := by decide +kernel

/-- A delivery, a wrap of OPN, a local reset, a step that leaves LIPN. -/
theorem witness_LipnIncreasesBetweenResets :
    answers (step { processing cd1 with lipn := 0 }) (fun t => t.lipn = 1) = true ∧
    answers (step { running .outgoing with
      ost := 2, ocnt := 1, opn := 255, lipn := 200, pq := [⟨.ack, 255, none⟩] })
      (fun t => t.lipn = 0 ∧ t.opn = 1) = true ∧
    answers (step { base with lipn := 9, opn := 7, cmd := [0x03, 0x00, 0x00, 0x01, 0x2C] })
      (fun t => t.lipn = 0 ∧ t.opn = 1 ∧ t.silMark = t.now) = true ∧
    answers (step { base with lipn := 9 }) (fun t => t.lipn = 9) = true := by decide +kernel

theorem witness_OutsideMovesStreamsOneWay :
    (∀ t, Input.deliverEI [0xAA] ≠ .por t) ∧ (∀ t, Input.drainEO 1 ≠ .por t) ∧ (∀ t, Input.command [0x13] ≠ .por t) := by
  refine ⟨?_, ?_, ?_⟩ <;> intro t h <;> cases h

/-- Each type with its longest legal length and the lengths beside it. -/
theorem witness_LengthRulePerType_legal : LengthLegal 0 8 ∧ LengthLegal 1 0 ∧ LengthLegal 2 1 ∧ LengthLegal 3 0 := by
  decide +kernel

theorem witness_LengthRulePerType_illegal :
    ¬ LengthLegal 0 9 ∧ ¬ LengthLegal 1 1 ∧ ¬ LengthLegal 2 0 ∧ ¬ LengthLegal 2 2 ∧ ¬ LengthLegal 3 1 ∧
    ¬ LengthLegal 4 0 :=
  ⟨by decide +kernel, by decide +kernel, by decide +kernel, by decide +kernel, by decide +kernel, by decide +kernel⟩

/-- VP-7: DATA with length 9. -/
theorem witness_LengthRulePerType :
    vp7[0] = 0xAA ∧ vp7[14] = 0x55 ∧ vp7[2].toNat ≤ 3 ∧ vp7[2] = 0 ∧ 8 < vp7[3].toNat := by decide +kernel

end Sys2Proof.Tests
end

/-! # The scope family: what `validate` accepts, and elapsed time -/

namespace Sys2Proof.Machine

/-- R116 for the accepted frames: `validate` is Ok exactly when none of its four checks fails. -/
theorem validate_eq_none_iff (f : Frame) :
    validate f = none ↔
      f[0] = Config.startByte ∧ f[14] = Config.stopByte ∧ (frameType f).toNat ≤ 3 ∧
        lengthOk (frameType f) (frameLength f) = true ∧ frameCrc f = frameCrcField f := by
  refine ⟨validate_none, ?_⟩
  rintro ⟨hstart, hstop, htype, hlength, hcrc⟩
  rw [validate, if_neg (not_or.mpr ⟨not_not.mpr hstart, not_not.mpr hstop⟩), if_neg (Nat.not_lt.mpr htype),
    if_neg ((Bool.not_eq_false _).mpr hlength), if_neg (not_not.mpr hcrc)]

/-- Settles O16: of the four checks, the markers and the type hold by construction; what is left is the length rule
and the CRC, which are what `FrameWellFormed` asks. -/
theorem wellFormedFramesValidate : Obligations.WellFormedFramesValidate := by
  intro type pn len p crc htype
  have hchecks : validate (frameOfFields type pn len p crc) = none ↔
      lengthOk type len = true ∧ frameCrc (frameOfFields type pn len p crc) = crc := by
    simp [validate_eq_none_iff, htype]
  rw [hchecks, FrameWellFormed, eq_comm (a := crc)]

/-- R13 in natural numbers: the subtraction borrows 2^32 when the mark is above `now`. -/
theorem State.elapsed_eq_mod (s : State) (mark : Time) :
    s.elapsed mark = (s.now.toNat + 2 ^ 32 - mark.toNat) % 2 ^ 32 := by
  have hmark : mark.toNat < 2 ^ 32 := mark.isLt
  calc s.elapsed mark
      _ = (2 ^ 32 - mark.toNat + s.now.toNat) % 2 ^ 32 := BitVec.toNat_sub s.now mark
      _ = (s.now.toNat + 2 ^ 32 - mark.toNat) % 2 ^ 32 := by congr 1; omega

/-- Settles O19: the difference by `State.elapsed_eq_mod`, the expiry by the law `State.expired_iff`. -/
theorem elapsedIsModular : Obligations.ElapsedIsModular :=
  fun s mark timeout => ⟨s.elapsed_eq_mod mark, s.expired_iff mark timeout⟩

end Sys2Proof.Machine

/-! # The state family: what one transition can do -/

namespace Sys2Proof.Machine

open Sys2Proof.Safety

/-! ## Fetch: the commands, and the state dispatch -/

/-- The command decoder answers one of the six commands of R88, never a frame or a transition. -/
theorem decodeCommand_complete {bytes rest : List Byte} {i : Instr} (h : decodeCommand bytes = .complete i rest) :
    (∃ now, i = .tick now) ∨ (∃ now, i = .sendReset now) ∨ (∃ now, i = .resetNumbering now) ∨
    (∃ bs, i = .crc16 bs) ∨ (∃ type pn payload, i = .prepare type pn payload) ∨ (∃ f, i = .validate f) := by
  cases bytes with
  | nil => cases h
  | cons cmd ops =>
    simp only [decodeCommand] at h
    split_ifs at h <;> obtain ⟨x, -, rfl⟩ := commandOf_complete h <;> simp

/-- R91: the selected instruction is the transition of the machine's state register. -/
theorem exec_decodeSelector (s : State) (m : MachineId) :
    exec (decodeSelector (s.selector m)) s = afterTransition m (transition m s) := by
  have values : ∀ v : BitVec 2, v = 0 ∨ v = 1 ∨ v = 2 ∨ v = 3 := by decide
  cases m with
  | outgoing =>
    rcases values s.ost with h | h | h | h <;> simp only [State.selector, transition, h] <;> rfl
  | incoming =>
    rcases values s.ist with h | h | h | h <;> simp only [State.selector, transition, h] <;> rfl

/-! ## The step, an equation for each way to fetch -/

section
variable {s : State}

theorem step_of_running {m : MachineId} {n : Nat} (h : s.takeInputs.phase = .running m n) :
    step s = afterTransition m (transition m s.takeInputs) := by
  rw [← exec_decodeSelector, step, fetch, h]

theorem step_of_complete {i : Instr} {rest : List Byte} (h : s.takeInputs.phase = .idle)
    (hd : decodeCommand s.takeInputs.cmd = .complete i rest) :
    step s = exec i { s.takeInputs with cmd := rest } := by
  simp only [step, fetch, h, hd]

theorem step_of_incomplete (h : s.takeInputs.phase = .idle)
    (hd : decodeCommand s.takeInputs.cmd = .incomplete) : step s = .next s.takeInputs := by
  simp only [step, fetch, h, hd]

theorem step_of_reserved {c : Byte} {rest : List Byte} (h : s.takeInputs.phase = .idle)
    (hd : decodeCommand s.takeInputs.cmd = .reserved c rest) :
    step s = .next ({ s.takeInputs with cmd := rest }.respond [statusRefused]) := by
  simp only [step, fetch, h, hd]

end

/-! ## The transitions, all they can do -/

theorem Port.dropOldest_of_cons {p : Port} {b : Byte} {rest : List Byte} (h : p.bytes = b :: rest) :
    p.dropOldest = ⟨rest, p.capacity⟩ := by
  rw [Port.dropOldest, h, List.tail_cons]

/-- READ_DATA stores a byte, or does what its timer says. -/
theorem outReadData_cases (s : State) :
    (∃ b rest, s.po.bytes = b :: rest ∧ s.ocnt.toNat < 8 ∧
      outReadData s = .progress { s with
        po := s.po.dropOldest, oreadMark := if s.ocnt = 0 then s.now else s.oreadMark
        obuf := s.obuf.setIfInBounds s.ocnt.toNat b, ocnt := s.ocnt + 1 }) ∨
    ((s.po.bytes = [] ∨ 8 ≤ s.ocnt.toNat) ∧ outReadData s = readTimer s) := by
  unfold outReadData
  split
  · split
    · exact .inl ⟨_, _, ‹_›, ‹_›, rfl⟩
    · exact .inr ⟨.inr (Nat.le_of_not_lt ‹_›), rfl⟩
  · exact .inr ⟨.inl ‹_›, rfl⟩

/-- SEND_PACKAGE waits for room, faults outside R37 (log 24), or writes the frame. -/
theorem outSendPackage_cases (s : State) :
    (s.eo.availableForWrite < 15 ∧ outSendPackage s = .noProgress (s.emit (.bufferFull .eo))) ∨
    (15 ≤ s.eo.availableForWrite ∧ 8 < s.ocnt.toNat ∧ outSendPackage s = .fault .ocntBeyondBuffer) ∨
    (15 ≤ s.eo.availableForWrite ∧ s.ocnt.toNat ≤ 8 ∧
      outSendPackage s = .progress { s.writeFrame s.dataFrame with oackMark := s.now, ost := 2 }) := by
  unfold outSendPackage
  split
  · rename_i hroom
    exact .inl ⟨Nat.lt_of_not_le fun h => by simp [(s.eoHasRoom_iff).mpr h] at hroom, rfl⟩
  · rename_i hroom
    have hroom : 15 ≤ s.eo.availableForWrite := s.eoHasRoom_iff.mp ((Bool.not_eq_false _).mp hroom)
    split
    · exact .inr (.inl ⟨hroom, ‹_›, rfl⟩)
    · exact .inr (.inr ⟨hroom, Nat.le_of_not_lt ‹_›, rfl⟩)

/-- WAIT_FOR_ACK_OR_NACK takes the head of the queue, a matching ACK, a matching NACK or a stale entry; with an empty
queue it retries after the timeout, or waits. -/
theorem outWait_cases (s : State) :
    (∃ reason rest, s.pq = ⟨.ack, s.opn, reason⟩ :: rest ∧ outWait s = .progress s.pqDropHead.acknowledged) ∨
    (∃ reason rest, s.pq = ⟨.nack, s.opn, reason⟩ :: rest ∧ outWait s = .progress s.pqDropHead.retryOrAbandon) ∨
    (∃ m rest, s.pq = m :: rest ∧ m.pn ≠ s.opn ∧ outWait s = .progress s.pqDropHead) ∨
    (s.pq = [] ∧ 500 ≤ (s.now - s.oackMark).toNat ∧ outWait s = .progress s.retryOrAbandon) ∨
    (s.pq = [] ∧ (s.now - s.oackMark).toNat < 500 ∧ outWait s = .noProgress s) := by
  unfold outWait
  split
  · rename_i m rest hpq
    obtain ⟨kind, pn, reason⟩ := m
    split
    · rename_i h
      obtain ⟨rfl, rfl⟩ : kind = .ack ∧ pn = s.opn := h
      exact .inl ⟨_, _, hpq, rfl⟩
    · split
      · rename_i h
        obtain ⟨rfl, rfl⟩ : kind = .nack ∧ pn = s.opn := h
        exact .inr (.inl ⟨_, _, hpq, rfl⟩)
      · refine .inr (.inr (.inl ⟨_, _, hpq, ?_, rfl⟩))
        cases kind <;> simp_all
  · rename_i hpq
    split
    · exact .inr (.inr (.inr (.inl ⟨hpq, (s.expired_iff _ _).mp ‹_›, rfl⟩)))
    · exact .inr (.inr (.inr (.inr ⟨hpq, Nat.lt_of_not_le fun h => ‹¬ _› ((s.expired_iff _ _).mpr h), rfl⟩)))

/-- WAIT_FOR_START_BYTE waits, discards a byte, or starts a frame. -/
theorem inWaitStart_cases (s : State) :
    (s.ei.bytes = [] ∧ inWaitStart s = .noProgress s) ∨
    (∃ b rest, s.ei.bytes = b :: rest ∧ b ≠ Config.startByte ∧
      inWaitStart s = .progress { s with ei := s.ei.dropOldest }) ∨
    (∃ rest, s.ei.bytes = Config.startByte :: rest ∧
      inWaitStart s = .progress { s with irxMark := s.now, icnt := 0, ist := 1 }) := by
  unfold inWaitStart
  split
  · exact .inl ⟨‹_›, rfl⟩
  · rename_i b rest hei
    split
    · exact .inr (.inl ⟨b, rest, hei, ‹_›, rfl⟩)
    · rename_i hb
      exact .inr (.inr ⟨rest, not_not.mp hb ▸ hei, rfl⟩)

/-- Part 1 of R172: the four meanings of a valid frame and R177's of one that fails. -/
theorem frameAction_cases (s : State) (f : Frame) :
    (validate f = none ∧ frameType f = Config.typeData ∧ frameAction s f = dataAction s f) ∨
    (validate f = none ∧ frameType f = Config.typeReset ∧ frameAction s f = resetAction) ∨
    (validate f = none ∧ frameType f = Config.typeAck ∧ frameAction s f = ackAction s f) ∨
    (validate f = none ∧ frameType f = Config.typeNack ∧ frameAction s f = nackAction s f) ∨
    (∃ r, validate f = some r ∧ frameAction s f = invalidAction f r) := by
  cases hv : validate f with
  | some r => exact .inr (.inr (.inr (.inr ⟨r, rfl, by simp only [frameAction, hv]⟩)))
  | none =>
    obtain ⟨-, -, htype, -, -⟩ := validate_none hv
    rcases packetType_cases htype with h | h | h | h
    · exact .inl ⟨rfl, h, by simp [frameAction, hv, h]⟩
    · exact .inr (.inr (.inl ⟨rfl, h, by simp [frameAction, hv, h]⟩))
    · exact .inr (.inr (.inr (.inl ⟨rfl, h, by simp [frameAction, hv, h]⟩)))
    · exact .inr (.inl ⟨rfl, h, by simp [frameAction, hv, h]⟩)

/-! ## What a transition leaves -/

/-- Every state the transition can leave has property `P`; a fault leaves none. -/
def Transition.Leaves (t : Transition) (P : State → Prop) : Prop :=
  ∀ v, t = .progress v ∨ t = .noProgress v → P v

section
variable {P : State → Prop}

@[simp] theorem Transition.leaves_progress {v : State} : (Transition.progress v).Leaves P ↔ P v := by
  simp [Transition.Leaves]

@[simp] theorem Transition.leaves_noProgress {v : State} : (Transition.noProgress v).Leaves P ↔ P v := by
  simp [Transition.Leaves]

@[simp] theorem Transition.leaves_fault (r : Fault) : (Transition.fault r).Leaves P := by
  simp [Transition.Leaves]

end

/-- What one transition of the outgoing machine can leave, from a state `s`: READ_DATA (R140) `collect`s a byte or `close`s
the packet; SEND_PACKAGE (R141) is on `hold` or `send`s; WAIT_FOR_ACK_OR_NACK (R142, R144, R200) `advance`s or `wrap`s OPN,
`retry`s, `abandon`s or `discard`s a stale entry; R143 is `corrupt`; each may `wait`. -/
inductive OutgoingResult (s : State) : State → Prop
  | wait : OutgoingResult s s
  | collect (b : Byte) (rest : List Byte) (hst : s.ost = 0) (hpo : s.po.bytes = b :: rest) (hroom : s.ocnt.toNat < 8) :
      OutgoingResult s { s with
        po := s.po.dropOldest, oreadMark := if s.ocnt = 0 then s.now else s.oreadMark
        obuf := s.obuf.setIfInBounds s.ocnt.toNat b, ocnt := s.ocnt + 1 }
  | close (hst : s.ost = 0) (hcnt : 0 < s.ocnt.toNat) : OutgoingResult s { s with ost := 1 }
  | hold (hst : s.ost = 1) : OutgoingResult s (s.emit (.bufferFull .eo))
  | send (hst : s.ost = 1) (hroom : 15 ≤ s.eo.availableForWrite) (hcnt : s.ocnt.toNat ≤ 8) :
      OutgoingResult s { s.writeFrame s.dataFrame with oackMark := s.now, ost := 2 }
  | advance (reason : Option Byte) (rest : List PendingMessage) (hst : s.ost = 2)
      (hpq : s.pq = ⟨.ack, s.opn, reason⟩ :: rest) (hopn : s.opn ≠ 255) :
      OutgoingResult s { s with pq := rest, opn := s.opn + 1, oretry := 0, ocnt := 0, ost := 0 }
  | wrap (reason : Option Byte) (rest : List PendingMessage) (hst : s.ost = 2)
      (hpq : s.pq = ⟨.ack, 255, reason⟩ :: rest) (hopn : s.opn = 255) :
      OutgoingResult s { s with pq := rest, opn := 1, lipn := 0, oretry := 0, ocnt := 0, ost := 0 }
  | retry (hst : s.ost = 2) (hretry : s.oretry.toNat < 5) :
      OutgoingResult s { s with pq := s.pq.tail, oretry := s.oretry + 1, ost := 1 }
  | abandon (hst : s.ost = 2) (hretry : 5 ≤ s.oretry.toNat) :
      OutgoingResult s { s with
        pq := s.pq.tail, oretry := 0, ocnt := 0, ost := 0, diag := s.diag ++ [.maxRetriesExceeded s.opn] }
  | discard (hst : s.ost = 2) : OutgoingResult s s.pqDropHead
  | corrupt (hst : s.ost = 3) : OutgoingResult s (s.emit (.corruptState .outgoing)).resetOutgoingMachine

theorem readTimer_leaves {s : State} (hst : s.ost = 0) : (readTimer s).Leaves (OutgoingResult s) := by
  rcases readTimer_cases s with ⟨hcnt, -, heq⟩ | ⟨-, heq⟩ <;> rw [heq]
  · exact Transition.leaves_progress.mpr (.close hst hcnt)
  · exact Transition.leaves_noProgress.mpr .wait

theorem outReadData_leaves {s : State} (hst : s.ost = 0) : (outReadData s).Leaves (OutgoingResult s) := by
  rcases outReadData_cases s with ⟨b, rest, hpo, hroom, heq⟩ | ⟨-, heq⟩ <;> rw [heq]
  · exact Transition.leaves_progress.mpr (.collect b rest hst hpo hroom)
  · exact readTimer_leaves hst

theorem outSendPackage_leaves {s : State} (hst : s.ost = 1) : (outSendPackage s).Leaves (OutgoingResult s) := by
  rcases outSendPackage_cases s with ⟨-, heq⟩ | ⟨-, -, heq⟩ | ⟨hroom, hcnt, heq⟩ <;> rw [heq]
  · exact Transition.leaves_noProgress.mpr (.hold hst)
  · exact Transition.leaves_fault _
  · exact Transition.leaves_progress.mpr (.send hst hroom hcnt)

theorem acknowledged_result {s : State} {reason : Option Byte} {rest : List PendingMessage} (hst : s.ost = 2)
    (hpq : s.pq = ⟨.ack, s.opn, reason⟩ :: rest) : OutgoingResult s s.pqDropHead.acknowledged := by
  rw [State.acknowledged, State.pqDropHead, hpq, List.tail_cons]
  rcases State.advanceOPN_cases { s with pq := rest } with ⟨hopn, heq⟩ | ⟨hopn, heq⟩ <;> rw [heq]
  · exact .wrap reason rest hst (hpq.trans (by rw [show s.opn = 255 from hopn])) hopn
  · exact .advance reason rest hst hpq hopn

theorem retryOrAbandon_result {s : State} (hst : s.ost = 2) : OutgoingResult s s.pqDropHead.retryOrAbandon := by
  rcases s.pqDropHead.retryOrAbandon_cases with ⟨hretry, heq⟩ | ⟨hretry, heq⟩ <;> rw [heq]
  · exact .retry hst hretry
  · exact .abandon hst hretry

/-- With an empty queue there is no head to drop. -/
theorem State.pqDropHead_of_nil {s : State} (h : s.pq = []) : s.pqDropHead = s := by
  rw [State.pqDropHead, h, List.tail_nil, ← h]

theorem outWait_leaves {s : State} (hst : s.ost = 2) : (outWait s).Leaves (OutgoingResult s) := by
  rcases outWait_cases s with ⟨reason, rest, hpq, heq⟩ | ⟨reason, rest, hpq, heq⟩ | ⟨m, rest, hpq, -, heq⟩ |
    ⟨hpq, -, heq⟩ | ⟨hpq, -, heq⟩ <;> rw [heq]
  · exact Transition.leaves_progress.mpr (acknowledged_result hst hpq)
  · exact Transition.leaves_progress.mpr (retryOrAbandon_result hst)
  · exact Transition.leaves_progress.mpr (.discard hst)
  · refine Transition.leaves_progress.mpr ?_
    have h := retryOrAbandon_result hst
    rwa [State.pqDropHead_of_nil hpq] at h
  · exact Transition.leaves_noProgress.mpr .wait

theorem outgoing_leaves (s : State) : (transition .outgoing s).Leaves (OutgoingResult s) := by
  dsimp only [transition]
  split_ifs with h0 h1 h2
  · exact outReadData_leaves h0
  · exact outSendPackage_leaves h1
  · exact outWait_leaves h2
  · exact Transition.leaves_progress.mpr (.corrupt (by generalize s.ost = v at *; revert v; decide))

/-- What one transition of the incoming machine can leave, from a state `s`: WAIT_FOR_START_BYTE (R170) `discard`s or
`start`s; READ_INCOMING_DATA (R171) `store`s or `giveUp`s; PROCESS_INCOMING_DATA is on `hold` (R178), or ends DATA (R175:
`deliver`, `duplicate`), RESET (R176: `localReset`), ACK and NACK (R173, R202: `enqueue`, `overflow`, `stale`) or an invalid
frame (R177: `reject`, `drop`); R174 is `corrupt`; each may `wait`. -/
inductive IncomingResult (s : State) : State → Prop
  | wait : IncomingResult s s
  | discard (b : Byte) (rest : List Byte) (hst : s.ist = 0) (hei : s.ei.bytes = b :: rest) :
      IncomingResult s { s with ei := s.ei.dropOldest }
  | start (rest : List Byte) (hst : s.ist = 0) (hei : s.ei.bytes = Config.startByte :: rest) :
      IncomingResult s { s with irxMark := s.now, icnt := 0, ist := 1 }
  | store (b : Byte) (rest : List Byte) (hst : s.ist = 1) (hei : s.ei.bytes = b :: rest) :
      IncomingResult s { s with
        ei := s.ei.dropOldest, ibuf := s.ibuf.setIfInBounds s.icnt.toNat b, icnt := s.nextIcnt
        ist := if s.nextIcnt.toNat = 15 then 2 else s.ist, freeCount := s.nextFreeCount }
  | giveUp (hst : s.ist = 1) : IncomingResult s { s with icnt := 0, ist := 0 }
  | hold (port : OutPort) (hst : s.ist = 2) : IncomingResult s (s.emit (.bufferFull port))
  | deliver (hst : s.ist = 2) (hvalid : validate s.ibuf = none) (htype : frameType s.ibuf = Config.typeData)
      (hnew : s.lipn.toNat < (framePn s.ibuf).toNat) (hroom : 15 ≤ s.eo.availableForWrite)
      (hpi : (deliveredBytes s.ibuf).length ≤ s.pi.availableForWrite) :
      IncomingResult s ({ s with pi := s.pi.write (deliveredBytes s.ibuf), lipn := framePn s.ibuf }.writeFrame
        (ackFrame (framePn s.ibuf))).frameDone
  | duplicate (hst : s.ist = 2) (hroom : 15 ≤ s.eo.availableForWrite) :
      IncomingResult s (s.writeFrame (ackFrame (framePn s.ibuf))).frameDone
  | localReset (hst : s.ist = 2) (hroom : 15 ≤ s.eo.availableForWrite) :
      IncomingResult s (s.resetPacketNumbering.writeFrame (ackFrame 0)).frameDone
  | enqueue (e : PendingMessage) (hst : s.ist = 2) (hreason : e.reason.isSome = true ↔ e.kind = .nack)
      (hroom : s.pq.length < 4) : IncomingResult s { s with pq := s.pq ++ [e] }.frameDone
  | overflow (e : PendingMessage) (hst : s.ist = 2) :
      IncomingResult s (s.emit (.queueOverflow e.kind e.pn)).frameDone
  | stale (hst : s.ist = 2) : IncomingResult s s.frameDone
  | reject (r : NackReason) (hst : s.ist = 2) (hroom : 15 ≤ s.eo.availableForWrite) :
      IncomingResult s ((s.emit (.invalidFrame r)).writeFrame (nackFrame (framePn s.ibuf) r)).frameDone
  | drop (r : NackReason) (hst : s.ist = 2) : IncomingResult s (s.emit (.invalidFrame r)).frameDone
  | corrupt (hst : s.ist = 3) : IncomingResult s (s.emit (.corruptState .incoming)).resetIncomingMachine

theorem inWaitStart_leaves {s : State} (hst : s.ist = 0) : (inWaitStart s).Leaves (IncomingResult s) := by
  rcases inWaitStart_cases s with ⟨-, heq⟩ | ⟨b, rest, hei, -, heq⟩ | ⟨rest, hei, heq⟩ <;> rw [heq]
  · exact Transition.leaves_noProgress.mpr .wait
  · exact Transition.leaves_progress.mpr (.discard b rest hst hei)
  · exact Transition.leaves_progress.mpr (.start rest hst hei)

theorem inRead_leaves {s : State} (hst : s.ist = 1) : (inRead s).Leaves (IncomingResult s) := by
  rcases inRead_cases s with ⟨b, rest, hei, heq⟩ | ⟨-, -, heq⟩ | ⟨-, -, heq⟩ <;> rw [heq]
  · rw [← Port.dropOldest_of_cons hei]
    exact Transition.leaves_progress.mpr (.store b rest hst hei)
  · exact Transition.leaves_progress.mpr (.giveUp hst)
  · exact Transition.leaves_noProgress.mpr .wait

theorem enqueued_result {s : State} (e : PendingMessage) (hst : s.ist = 2)
    (hreason : e.reason.isSome = true ↔ e.kind = .nack) : IncomingResult s (s.pqPush e).frameDone := by
  rcases s.pqPush_cases e with ⟨hroom, heq⟩ | ⟨-, heq⟩ <;> rw [heq]
  · exact .enqueue e hst hreason hroom
  · exact .overflow e hst

/-! The actions, an equation per case. -/

section
variable {s : State} {f : Frame}

theorem dataAction_new (h : s.lipn.toNat < (framePn f).toNat) :
    dataAction s f = ⟨some (ackFrame (framePn f)), some (deliveredBytes f), false, none, none⟩ := by
  simp only [dataAction, (s.isNew_iff _).mpr h, if_true]

theorem dataAction_old (h : ¬ s.lipn.toNat < (framePn f).toNat) :
    dataAction s f = ⟨some (ackFrame (framePn f)), none, false, none, none⟩ := by
  rw [dataAction, if_neg (mt (s.isNew_iff _).mp h)]

theorem ackAction_matching (h : framePn f = s.opn) :
    ackAction s f = ⟨none, none, false, some ⟨.ack, framePn f, none⟩, none⟩ := by
  rw [ackAction, if_pos h]

theorem ackAction_stale (h : framePn f ≠ s.opn) : ackAction s f = ⟨none, none, false, none, none⟩ := by
  rw [ackAction, if_neg h]

theorem nackAction_matching (h : framePn f = s.opn) :
    nackAction s f = ⟨none, none, false, some ⟨.nack, framePn f, some f[4]⟩, none⟩ := by
  rw [nackAction, if_pos h]

theorem nackAction_stale (h : framePn f ≠ s.opn) : nackAction s f = ⟨none, none, false, none, none⟩ := by
  rw [nackAction, if_neg h]

theorem invalidAction_data (h : frameType f = Config.typeData) (r : NackReason) :
    invalidAction f r = ⟨some (nackFrame (framePn f) r), none, false, none, some r⟩ := by
  rw [invalidAction, if_pos h]

theorem invalidAction_other (h : frameType f ≠ Config.typeData) (r : NackReason) :
    invalidAction f r = ⟨none, none, false, none, some r⟩ := by
  rw [invalidAction, if_neg h]

end

/-- The commit of the frame in IBUF, its room being there. -/
theorem commitFrame_result {s : State} (hst : s.ist = 2)
    (hroom : (frameAction s s.ibuf).reply.isSome = true → 15 ≤ s.eo.availableForWrite)
    (hpi : ∀ bs, (frameAction s s.ibuf).deliver = some bs → bs.length ≤ s.pi.availableForWrite) :
    IncomingResult s (commitFrame s (framePn s.ibuf) (frameAction s s.ibuf)) := by
  rcases frameAction_cases s s.ibuf with ⟨hvalid, htype, heq⟩ | ⟨-, -, heq⟩ | ⟨-, -, heq⟩ | ⟨-, -, heq⟩ | ⟨r, -, heq⟩ <;>
    rw [heq] at hroom hpi ⊢
  · by_cases hnew : s.lipn.toNat < (framePn s.ibuf).toNat
    · rw [dataAction_new hnew] at hpi ⊢
      exact .deliver hst hvalid htype hnew (hroom rfl) (hpi _ rfl)
    · rw [dataAction_old hnew]
      exact .duplicate hst (hroom rfl)
  · exact .localReset hst (hroom rfl)
  · by_cases hpn : framePn s.ibuf = s.opn
    · rw [ackAction_matching hpn]
      exact enqueued_result _ hst (by simp)
    · rw [ackAction_stale hpn]
      exact .stale hst
  · by_cases hpn : framePn s.ibuf = s.opn
    · rw [nackAction_matching hpn]
      exact enqueued_result _ hst (by simp)
    · rw [nackAction_stale hpn]
      exact .stale hst
  · by_cases htype : frameType s.ibuf = Config.typeData
    · rw [invalidAction_data htype] at hroom ⊢
      exact .reject r hst (hroom rfl)
    · rw [invalidAction_other htype]
      exact .drop r hst

theorem inProcess_leaves {s : State} (hst : s.ist = 2) : (inProcess s).Leaves (IncomingResult s) := by
  unfold inProcess
  rcases performFrame_cases s (framePn s.ibuf) (frameAction s s.ibuf) with
    ⟨-, -, heq⟩ | ⟨-, -, heq⟩ | ⟨hroom, hpi, heq⟩ <;> rw [heq]
  · exact Transition.leaves_noProgress.mpr (.hold .eo hst)
  · exact Transition.leaves_noProgress.mpr (.hold .pi hst)
  · exact Transition.leaves_progress.mpr (commitFrame_result hst hroom hpi)

theorem incoming_leaves (s : State) : (transition .incoming s).Leaves (IncomingResult s) := by
  dsimp only [transition]
  split_ifs with h0 h1 h2
  · exact inWaitStart_leaves h0
  · exact inRead_leaves h1
  · exact inProcess_leaves h2
  · exact Transition.leaves_progress.mpr (.corrupt (by generalize s.ist = v at *; revert v; decide))

end Sys2Proof.Machine

/-! # The state family: what one step can do, and what every step keeps -/

namespace Sys2Proof.Machine

open Sys2Proof.Safety

/-! ## What a command leaves -/

/-- What the start of a command, a refusal or a wait can leave, from a state `s` whose command bytes are gone (R88, R89). -/
inductive CommandResult (s : State) : State → Prop
  | wait : CommandResult s s
  | respond (bs : List Byte) : CommandResult s (s.respond bs)
  | beginTick (now : Time) : CommandResult s { s.sample now with phase := .running .outgoing 0 }
  | silenceReset (now : Time) :
      CommandResult s { ((s.sample now).emit .silenceReset).resetPacketNumbering with phase := .running .outgoing 0 }
  | sendReset (now : Time) (hroom : 15 ≤ s.eo.availableForWrite) :
      CommandResult s ((((s.sample now).writeFrame resetFrame).resetPacketNumbering).respond [statusDone])
  | resetUnsent (now : Time) :
      CommandResult s ((((s.sample now).emit (.bufferFull .eo)).resetPacketNumbering).respond [statusNotWritten])
  | resetNumbering (now : Time) : CommandResult s (((s.sample now).resetPacketNumbering).respond [statusDone])

theorem beginTick_result (s : State) (now : Time) : CommandResult s (s.beginTick now) := by
  unfold State.beginTick
  rcases (s.sample now).silenceCheck_cases with ⟨-, heq⟩ | ⟨-, heq⟩ <;> rw [heq]
  · exact .silenceReset now
  · exact .beginTick now

theorem sendReset_result (s : State) (now : Time) : CommandResult s (s.sendReset now) := by
  unfold State.sendReset
  split_ifs with hroom
  · exact .sendReset now (s.eoHasRoom_iff.mp hroom)
  · exact .resetUnsent now

/-- A command of R88 that answers a next state. -/
theorem exec_command_result {bytes rest : List Byte} {i : Instr} {s t : State}
    (hd : decodeCommand bytes = .complete i rest) (h : exec i s = .next t) : CommandResult s t := by
  rcases decodeCommand_complete hd with ⟨now, rfl⟩ | ⟨now, rfl⟩ | ⟨now, rfl⟩ | ⟨bs, rfl⟩ | ⟨type, pn, payload, rfl⟩ |
    ⟨f, rfl⟩ <;> obtain ⟨-, rfl⟩ := whenIdle_next h
  · exact beginTick_result s now
  · exact sendReset_result s now
  · exact .resetNumbering now
  · exact .respond _
  · exact .respond _
  · exact .respond _

/-! ## The scheduler's count -/

/-- `t` is `v`, left by a transition of machine `m`, after the scheduler's count (R208). -/
def Counted (m : MachineId) (v t : State) : Prop := t = v.afterProgress m ∨ t = v.afterNoProgress m

/-- The count touches the phase, the responses and the events only. -/
theorem Counted.frame {m : MachineId} {v t : State} (h : Counted m v t) :
    ∃ phase resp diag, t = { v with phase := phase, resp := resp, diag := diag } := by
  rcases h with rfl | rfl
  · exact ⟨_, _, _, v.afterProgress_frame m⟩
  · exact ⟨_, _, v.diag, v.afterNoProgress_frame m⟩

theorem machineDone_phaseLegal (v : State) (m : MachineId) : PhaseLegal (v.machineDone m) := by
  intro m' n' h
  cases m <;> cases h
  decide

/-- A count below the cap is below it after one more transition, or the machine is left. -/
theorem Counted.phaseLegal {m : MachineId} {n : Nat} {v t : State} (hphase : v.phase = .running m n)
    (h : Counted m v t) : PhaseLegal t := by
  rcases h with rfl | rfl
  · rw [State.afterProgress, hphase]
    simp only [if_true]
    rcases v.countProgress_cases m n with ⟨hlt, heq⟩ | ⟨-, heq⟩ <;> rw [heq]
    · intro m' n' h
      cases h
      exact hlt
    · exact machineDone_phaseLegal _ m
  · rw [State.afterNoProgress, hphase]
    simp only [if_true]
    exact machineDone_phaseLegal v m

theorem OutgoingResult.phase {s v : State} (h : OutgoingResult s v) : v.phase = s.phase := by
  cases h <;> rfl

theorem IncomingResult.phase {s v : State} (h : IncomingResult s v) : v.phase = s.phase := by
  cases h <;> rfl

/-! ## What a step leaves -/

/-- All a step can do, once the outside has acted: start a command, or run one transition and count it. -/
theorem step_cases {s t : State} (h : step s = .next t) :
    (s.takeInputs.phase = .idle ∧ ∃ rest, CommandResult { s.takeInputs with cmd := rest } t) ∨
    (∃ n v, s.takeInputs.phase = .running .outgoing n ∧ OutgoingResult s.takeInputs v ∧ Counted .outgoing v t) ∨
    (∃ n v, s.takeInputs.phase = .running .incoming n ∧ IncomingResult s.takeInputs v ∧ Counted .incoming v t) := by
  cases hphase : s.takeInputs.phase with
  | idle =>
    refine .inl ⟨rfl, ?_⟩
    cases hd : decodeCommand s.takeInputs.cmd with
    | complete i rest =>
      rw [step_of_complete hphase hd] at h
      exact ⟨rest, exec_command_result hd h⟩
    | incomplete =>
      rw [step_of_incomplete hphase hd, Host.Outcome.next.injEq] at h
      exact ⟨s.takeInputs.cmd, h ▸ .wait⟩
    | reserved c rest =>
      rw [step_of_reserved hphase hd, Host.Outcome.next.injEq] at h
      exact ⟨rest, h ▸ .respond _⟩
  | running m n =>
    rw [step_of_running hphase] at h
    have hleft : ∃ v, (transition m s.takeInputs = .progress v ∨ transition m s.takeInputs = .noProgress v) ∧
        Counted m v t := by
      rcases afterTransition_next h with ⟨v, hv, ht⟩ | ⟨v, hv, ht⟩
      · exact ⟨v, .inl hv, .inl ht⟩
      · exact ⟨v, .inr hv, .inr ht⟩
    obtain ⟨v, hv, hcount⟩ := hleft
    cases m with
    | outgoing => exact .inr (.inl ⟨n, v, rfl, outgoing_leaves _ v hv, hcount⟩)
    | incoming => exact .inr (.inr ⟨n, v, rfl, incoming_leaves _ v hv, hcount⟩)

/-! ## Invariants: what each action of the outside, each command and each transition keeps, every step keeps -/

/-- What every action of the outside keeps, the outside keeps at a step boundary. -/
theorem takeInputs_keeps {P : State → Prop} (schedule : ∀ s batches, P s → P { s with schedule := batches })
    (input : ∀ s x, P s → P (s.applyInput x)) {s : State} (h : P s) : P s.takeInputs :=
  State.applyInputs_keeps input _ _ (schedule s _ h)

/-- Every step keeps a property that each of its parts keeps. -/
theorem step_keeps {P : State → Prop}
    (frame : ∀ s batches bytes, P s → P { s with schedule := batches, cmd := bytes })
    (input : ∀ s x, P s → P (s.applyInput x))
    (command : ∀ s t, CommandResult s t → P s → P t)
    (outgoing : ∀ s v, OutgoingResult s v → P s → P v)
    (incoming : ∀ s v, IncomingResult s v → P s → P v)
    (count : ∀ s phase resp diag, P s → P { s with phase := phase, resp := resp, diag := diag })
    {s t : State} (hs : P s) (h : step s = .next t) : P t := by
  have hu : P s.takeInputs := takeInputs_keeps (fun s batches => frame s batches s.cmd) input hs
  rcases step_cases h with ⟨-, rest, hr⟩ | ⟨n, v, -, hr, hc⟩ | ⟨n, v, -, hr, hc⟩
  · exact command _ _ hr (frame _ s.takeInputs.schedule rest hu)
  · obtain ⟨phase, resp, diag, rfl⟩ := hc.frame
    exact count v phase resp diag (outgoing _ v hr hu)
  · obtain ⟨phase, resp, diag, rfl⟩ := hc.frame
    exact count v phase resp diag (incoming _ v hr hu)

/-- `t` has the registers of `s`: they differ at most in the streams, the time, and the scheduler's own fields. -/
def SameRegisters (s t : State) : Prop :=
  t = { s with
    now := t.now, phase := t.phase, po := t.po, eo := t.eo, ei := t.ei, pi := t.pi, cmd := t.cmd, resp := t.resp
    diag := t.diag, schedule := t.schedule }

/-- The same for a property of the registers: outside the transitions only a reset changes them. -/
theorem step_keeps_of_registers {P : State → Prop}
    (frame : ∀ s t, SameRegisters s t → P s → P t)
    (powerOn : ∀ (s : State) (now : Time), P (s.powerOn now))
    (localReset : ∀ s : State, P s.resetPacketNumbering)
    (outgoing : ∀ s v, OutgoingResult s v → P s → P v)
    (incoming : ∀ s v, IncomingResult s v → P s → P v)
    {s t : State} (hs : P s) (h : step s = .next t) : P t := by
  refine step_keeps (fun s _ _ => frame s _ rfl) ?input ?command outgoing incoming (fun s _ _ _ => frame s _ rfl) hs h
  case input =>
    intro s x h
    cases x with
    | por now => exact powerOn s now
    | _ => exact frame s _ rfl h
  case command =>
    intro s t hr h
    cases hr with
    | wait | respond | beginTick => exact frame s _ rfl h
    | silenceReset now | sendReset now | resetUnsent now | resetNumbering now =>
      exact frame (s.sample now).resetPacketNumbering _ rfl (localReset _)

end Sys2Proof.Machine

namespace Sys2Proof.Safety

open Sys2Proof.Machine

/-! ## R37 in three parts, each kept by every step on its own -/

/-- R37, the registers of the outgoing machine. -/
def OutgoingLegal (s : State) : Prop :=
  1 ≤ s.opn.toNat ∧ s.ocnt.toNat ≤ 8 ∧ s.oretry.toNat ≤ 5 ∧ s.ost ≠ 3 ∧ (s.ost = 1 ∨ s.ost = 2 → 1 ≤ s.ocnt.toNat)

/-- R37, the registers of the incoming machine. -/
def IncomingLegal (s : State) : Prop := s.ist ≠ 3 ∧ (s.ist = 2 → s.icnt = 15) ∧ (s.ist = 0 → s.icnt = 0)

/-- The bounds that R37 names and these parts do not are the registers' widths. -/
theorem r37_iff (s : State) : R37 s ↔ OutgoingLegal s ∧ IncomingLegal s ∧ s.pq.length ≤ 4 := by
  constructor
  · rintro ⟨⟨⟨hopn, -⟩, hocnt, -, ⟨-, hpq⟩, hretry, host, hist⟩, hsend, hfull, hempty⟩
    exact ⟨⟨hopn, hocnt, hretry, host, hsend⟩, ⟨hist, hfull, hempty⟩, hpq⟩
  · rintro ⟨⟨hopn, hocnt, hretry, host, hsend⟩, ⟨hist, hfull, hempty⟩, hpq⟩
    have hlen : s.pqLen.toNat ≤ 4 := (State.pqLen_toNat hpq).trans_le hpq
    have hopn' := s.opn.isLt
    have hicnt := s.icnt.isLt
    exact ⟨⟨⟨hopn, by omega⟩, hocnt, by omega, ⟨hlen, hpq⟩, hretry, host, hist⟩, hsend, hfull, hempty⟩

/-- The values a reset of the outgoing machine leaves are legal, OPN aside. -/
theorem outgoingLegal_of_idle {s : State} (hopn : 1 ≤ s.opn.toNat) (hocnt : s.ocnt = 0) (hretry : s.oretry = 0)
    (host : s.ost = 0) : OutgoingLegal s := by
  simp [OutgoingLegal, hopn, hocnt, hretry, host]

/-- The values a reset of the incoming machine leaves are legal. -/
theorem incomingLegal_of_idle {s : State} (hist : s.ist = 0) (hicnt : s.icnt = 0) : IncomingLegal s := by
  simp [IncomingLegal, hist, hicnt]

theorem localReset_outgoingLegal (s : State) : OutgoingLegal s.resetPacketNumbering :=
  outgoingLegal_of_idle Nat.le.refl rfl rfl rfl

theorem localReset_incomingLegal (s : State) : IncomingLegal s.resetPacketNumbering :=
  incomingLegal_of_idle rfl rfl

theorem step_keeps_outgoingLegal {s t : State} (hs : OutgoingLegal s) (h : step s = .next t) : OutgoingLegal t := by
  refine step_keeps_of_registers (fun s t ht h => by rw [ht]; exact h)
    (fun s _ => localReset_outgoingLegal s) localReset_outgoingLegal ?outgoing ?incoming hs h
  case incoming =>
    intro s v hr h
    cases hr with
    | localReset => exact localReset_outgoingLegal s
    | _ => exact h
  case outgoing =>
    rintro s v hr ⟨hopn, hocnt, hretry, host, hsend⟩
    cases hr with
    | wait | hold | discard => exact ⟨hopn, hocnt, hretry, host, hsend⟩
    | collect b rest hst hpo hroom =>
      have hcnt : (s.ocnt + 1).toNat ≤ 8 := by bv_omega
      exact ⟨hopn, hcnt, hretry, host, by simp [hst]⟩
    | close hst hcnt => exact ⟨hopn, hocnt, hretry, by simp, fun _ => hcnt⟩
    | send hst => exact ⟨hopn, hocnt, hretry, by simp, fun _ => hsend (.inl hst)⟩
    | advance reason rest hst hpq hne =>
      have hnext : 1 ≤ (s.opn + 1).toNat := by bv_omega
      exact outgoingLegal_of_idle hnext rfl rfl rfl
    | wrap => exact outgoingLegal_of_idle Nat.le.refl rfl rfl rfl
    | retry hst hlt =>
      have hnext : (s.oretry + 1).toNat ≤ 5 := by bv_omega
      exact ⟨hopn, hocnt, hnext, by simp, fun _ => hsend (.inr hst)⟩
    | abandon | corrupt => exact outgoingLegal_of_idle hopn rfl rfl rfl

theorem step_keeps_incomingLegal {s t : State} (hs : IncomingLegal s) (h : step s = .next t) : IncomingLegal t := by
  refine step_keeps_of_registers (fun s t ht h => by rw [ht]; exact h)
    (fun s _ => localReset_incomingLegal s) localReset_incomingLegal ?outgoing ?incoming hs h
  case outgoing =>
    intro s v hr h
    cases hr <;> exact h
  case incoming =>
    intro s v hr h
    cases hr with
    | wait | discard | hold => exact h
    | start => simp [IncomingLegal]
    | store b rest hst hei =>
      by_cases hlast : s.nextIcnt.toNat = 15
      · simp [IncomingLegal, BitVec.eq_of_toNat_eq (y := (15 : BitVec 4)) hlast]
      · simp [IncomingLegal, hlast, hst]
    | _ => exact incomingLegal_of_idle rfl rfl

/-! ## The response queue -/

/-- A property of the queue is kept by every step if the queue's shrinking keeps it and every entry the block queues,
which has a reason exactly if it is a NACK, where there is room. -/
theorem step_keeps_of_queue {P : List PendingMessage → Prop} (nil : P []) (tail : ∀ q, P q → P q.tail)
    (push : ∀ q e, q.length < 4 → (e.reason.isSome = true ↔ e.kind = .nack) → P q → P (q ++ [e]))
    {s t : State} (hs : P s.pq) (h : step s = .next t) : P t.pq := by
  refine step_keeps_of_registers (P := fun s => P s.pq) (fun s t ht h => by rw [ht]; exact h)
    (fun _ _ => nil) (fun _ => nil) ?outgoing ?incoming hs h
  case outgoing =>
    intro s v hr h
    cases hr with
    | advance reason rest hst hpq | wrap reason rest hst hpq => exact tail _ (hpq ▸ h)
    | retry | abandon | discard => exact tail _ h
    | _ => exact h
  case incoming =>
    intro s v hr h
    cases hr with
    | localReset => exact nil
    | enqueue e hst hreason hroom => exact push _ e hroom hreason h
    | _ => exact h

theorem step_keeps_queueLegal {s t : State} (hs : s.pq.length ≤ 4) (h : step s = .next t) : t.pq.length ≤ 4 := by
  refine step_keeps_of_queue (P := fun q => q.length ≤ 4) (Nat.zero_le 4) ?tail ?push hs h
  case tail =>
    intro q hq
    rw [List.length_tail]
    omega
  case push =>
    intro q e hroom _ _
    rw [List.length_append]
    exact hroom

theorem step_keeps_reasonsMatchKinds {s t : State} (hs : ReasonsMatchKinds s) (h : step s = .next t) :
    ReasonsMatchKinds t := by
  refine step_keeps_of_queue (P := fun q => ∀ e ∈ q, e.reason.isSome = true ↔ e.kind = .nack) (by simp) ?tail ?push hs h
  case tail => exact fun q hq e he => hq e (List.mem_of_mem_tail he)
  case push =>
    intro q e _ hreason hq e' he'
    rcases List.mem_append.mp he' with hold | hnew
    · exact hq e' hold
    · exact List.mem_singleton.mp hnew ▸ hreason

/-- Settles O46: each of the three parts of R37 is kept by every step. -/
theorem stepKeepsR37 : Obligations.StepKeepsR37 := by
  intro s t hs h
  obtain ⟨hout, hin, hqueue⟩ := (r37_iff s).mp hs
  exact (r37_iff t).mpr
    ⟨step_keeps_outgoingLegal hout h, step_keeps_incomingLegal hin h, step_keeps_queueLegal hqueue h⟩

/-! ## The frame being received -/

/-- R171 and R179: there is room for the next byte, and the frame begins with the start byte. -/
def ReceptionLegal (s : State) : Prop := ReceiveBufferHasRoom s ∧ StartByteSeen s

/-- A machine that waits for a start byte is receiving nothing. -/
theorem receptionLegal_of_waiting {s : State} (hist : s.ist = 0) : ReceptionLegal s := by
  simp [ReceptionLegal, ReceiveBufferHasRoom, StartByteSeen, hist]

/-- Bytes that arrive behind EI's head do not matter. -/
theorem deliverEI_keeps_receptionLegal {s : State} (bs : List Byte) (h : ReceptionLegal s) :
    ReceptionLegal (s.applyInput (.deliverEI bs)) := by
  obtain ⟨hroom, hhead, hfirst⟩ := h
  refine ⟨hroom, fun hist hicnt => ?_, hfirst⟩
  have := hhead hist hicnt
  show (s.ei.fill bs).bytes.head? = some Config.startByte
  rw [Port.fill_bytes, List.head?_append, this, Option.some_or]

/-- The byte stored is EI's head: the first one is the start byte, a later one is not stored at IBUF[0]. -/
theorem store_keeps_receptionLegal {s : State} {b : Byte} {rest : List Byte} (hst : s.ist = 1)
    (hei : s.ei.bytes = b :: rest) (h : ReceptionLegal s) :
    ReceptionLegal { s with
      ei := s.ei.dropOldest, ibuf := s.ibuf.setIfInBounds s.icnt.toNat b, icnt := s.nextIcnt
      ist := if s.nextIcnt.toNat = 15 then 2 else s.ist, freeCount := s.nextFreeCount } := by
  obtain ⟨hroom, hhead, hfirst⟩ := h
  have hlt : s.icnt.toNat < 15 := hroom hst
  have hnext : s.nextIcnt = s.icnt + 1 := if_pos hlt
  have hpos : s.nextIcnt ≠ 0 := by rw [hnext]; bv_omega
  have hle : s.nextIcnt.toNat ≤ 15 := by rw [hnext]; bv_omega
  refine ⟨fun hist => ?_, fun _ hzero => absurd hzero hpos, fun _ _ => ?_⟩
  · refine lt_of_le_of_ne hle fun hlast => ?_
    simp [hlast] at hist
  · show (s.ibuf.setIfInBounds s.icnt.toNat b)[0] = Config.startByte
    by_cases hzero : s.icnt = 0
    · have := hhead hst hzero
      simp_all
    · have hne : s.icnt.toNat ≠ 0 := fun h => hzero (BitVec.eq_of_toNat_eq h)
      rw [Vector.getElem_setIfInBounds_ne _ hne]
      exact hfirst (.inl hst) hzero

theorem step_keeps_receptionLegal {s t : State} (hs : ReceptionLegal s) (h : step s = .next t) : ReceptionLegal t := by
  refine step_keeps (fun _ _ _ h => h) ?input ?command ?outgoing ?incoming (fun _ _ _ _ h => h) hs h
  case input =>
    intro s x h
    cases x with
    | por => exact receptionLegal_of_waiting rfl
    | deliverEI bs => exact deliverEI_keeps_receptionLegal bs h
    | _ => exact h
  case command =>
    intro s t hr h
    cases hr with
    | wait | respond | beginTick => exact h
    | _ => exact receptionLegal_of_waiting rfl
  case outgoing =>
    intro s v hr h
    cases hr <;> exact h
  case incoming =>
    intro s v hr h
    cases hr with
    | wait | hold => exact h
    | discard b rest hst => exact receptionLegal_of_waiting hst
    | start rest hst hei => simp [ReceptionLegal, ReceiveBufferHasRoom, StartByteSeen, hei]
    | store b rest hst hei => exact store_keeps_receptionLegal hst hei h
    | _ => exact receptionLegal_of_waiting rfl

/-! ## The streams -/

/-- A whole frame is written only where it fits. -/
theorem writeFrame_keeps_streamsBounded {s : State} (f : Frame) (hroom : 15 ≤ s.eo.availableForWrite)
    (h : StreamsBounded s) : StreamsBounded (s.writeFrame f) := by
  obtain ⟨hpo, heo, hei, hpi⟩ := h
  exact ⟨hpo, Port.write_bounded heo (f.length_toList.trans_le hroom), hei, hpi⟩

theorem applyInput_keeps_streamsBounded (s : State) (x : Input) (h : StreamsBounded s) :
    StreamsBounded (s.applyInput x) := by
  obtain ⟨hpo, heo, hei, hpi⟩ := h
  cases x with
  | command | por => exact ⟨hpo, heo, hei, hpi⟩
  | producePO bs => exact ⟨Port.fill_bounded bs hpo, heo, hei, hpi⟩
  | deliverEI bs => exact ⟨hpo, heo, Port.fill_bounded bs hei, hpi⟩
  | drainEO n => exact ⟨hpo, Port.drain_bounded n heo, hei, hpi⟩
  | drainPI n => exact ⟨hpo, heo, hei, Port.drain_bounded n hpi⟩

theorem step_keeps_streamsBounded {s t : State} (hs : StreamsBounded s) (h : step s = .next t) : StreamsBounded t := by
  refine step_keeps (fun _ _ _ h => h) applyInput_keeps_streamsBounded ?command ?outgoing ?incoming
    (fun _ _ _ _ h => h) hs h
  case command =>
    intro s t hr h
    cases hr with
    | sendReset now hroom => exact writeFrame_keeps_streamsBounded resetFrame hroom h
    | _ => exact h
  case outgoing =>
    intro s v hr h
    cases hr with
    | collect =>
      obtain ⟨hpo, heo, hei, hpi⟩ := h
      exact ⟨Port.dropOldest_bounded hpo, heo, hei, hpi⟩
    | send hst hroom => exact writeFrame_keeps_streamsBounded s.dataFrame hroom h
    | _ => exact h
  case incoming =>
    intro s v hr h
    cases hr with
    | discard | store =>
      obtain ⟨hpo, heo, hei, hpi⟩ := h
      exact ⟨hpo, heo, Port.dropOldest_bounded hei, hpi⟩
    | deliver hst hvalid htype hnew hroom hfits =>
      obtain ⟨hpo, heo, hei, hpi⟩ := writeFrame_keeps_streamsBounded (ackFrame (framePn s.ibuf)) hroom h
      exact ⟨hpo, heo, hei, Port.write_bounded hpi hfits⟩
    | duplicate hst hroom | localReset hst hroom | reject r hst hroom =>
      exact writeFrame_keeps_streamsBounded _ hroom h
    | _ => exact h

/-! ## The scheduler's count -/

theorem step_keeps_phaseLegal {s t : State} (h : step s = .next t) : PhaseLegal t := by
  rcases step_cases h with ⟨hidle, rest, hr⟩ | ⟨n, v, hrun, hr, hc⟩ | ⟨n, v, hrun, hr, hc⟩
  · intro m n hm
    cases hr with
    | beginTick | silenceReset =>
      cases hm
      decide
    | _ => exact absurd (hidle.symm.trans hm) nofun
  · exact hc.phaseLegal (hr.phase.trans hrun)
  · exact hc.phaseLegal (hr.phase.trans hrun)

/-- Settles O47: R37 by O46; the rest of the invariant part by part. -/
theorem stepKeepsInvariant : Obligations.StepKeepsInvariant := by
  intro s t ⟨hr37, hreceive, hstart, hstreams, hreasons, _⟩ h
  obtain ⟨hreceive', hstart'⟩ := step_keeps_receptionLegal ⟨hreceive, hstart⟩ h
  exact ⟨stepKeepsR37 s t hr37 h, hreceive', hstart', step_keeps_streamsBounded hstreams h,
    step_keeps_reasonsMatchKinds hreasons h, step_keeps_phaseLegal h⟩

/-! ## LIPN -/

/-- Settles O58: of all that a step can do, only a delivery, a wrap and a local reset write LIPN. -/
theorem lipnIncreasesBetweenResets : Obligations.LipnIncreasesBetweenResets := by
  intro s t h
  rcases step_cases h with ⟨-, rest, hr⟩ | ⟨n, v, hrun, hr, hc⟩ | ⟨n, v, hrun, hr, hc⟩
  · cases hr with
    | wait | respond | beginTick => exact .inl rfl
    | _ => exact .inr (.inr (.inr ⟨rfl, rfl, rfl, rfl, rfl, rfl, rfl, rfl, rfl⟩))
  · obtain ⟨phase, resp, diag, rfl⟩ := hc.frame
    cases hr with
    | wrap reason rest hst hpq hopn =>
      exact .inr (.inr (.inl ⟨⟨n, hrun⟩, hst, hopn, ⟨reason, hpq⟩, rfl, rfl, rfl, rfl⟩))
    | _ => exact .inl rfl
  · obtain ⟨phase, resp, diag, rfl⟩ := hc.frame
    cases hr with
    | deliver hst hvalid htype hnew => exact .inr (.inl ⟨hnew, ⟨n, hrun⟩, hst, rfl, rfl⟩)
    | localReset => exact .inr (.inr (.inr ⟨rfl, rfl, rfl, rfl, rfl, rfl, rfl, rfl, rfl⟩))
    | _ => exact .inl rfl

end Sys2Proof.Safety

/-! # The state family: counts the buffers cannot take (logs 12 and 24) -/

namespace Sys2Proof.Machine

/-! ## Nothing faults but SEND_PACKAGE -/

theorem afterTransition_fault {m : MachineId} {t : Transition} {r : Fault} (h : afterTransition m t = .fault r) :
    t = .fault r := by
  cases t <;> simp_all [afterTransition]

theorem whenIdle_ne_fault (s t : State) (r : Fault) : whenIdle s t ≠ .fault r := by
  unfold whenIdle
  split <;> simp

theorem outReadData_ne_fault (s : State) (r : Fault) : outReadData s ≠ .fault r := by
  rcases outReadData_cases s with ⟨b, rest, -, -, heq⟩ | ⟨-, heq⟩
  · simp [heq]
  · rcases readTimer_cases s with ⟨-, -, htimer⟩ | ⟨-, htimer⟩ <;> simp [heq, htimer]

theorem outSendPackage_fault {s : State} {r : Fault} (h : outSendPackage s = .fault r) : 8 < s.ocnt.toNat := by
  rcases outSendPackage_cases s with ⟨-, heq⟩ | ⟨-, hcnt, -⟩ | ⟨-, -, heq⟩
  · simp [heq] at h
  · exact hcnt
  · simp [heq] at h

theorem outWait_ne_fault (s : State) (r : Fault) : outWait s ≠ .fault r := by
  rcases outWait_cases s with ⟨_, _, -, heq⟩ | ⟨_, _, -, heq⟩ | ⟨_, _, -, -, heq⟩ | ⟨-, -, heq⟩ | ⟨-, -, heq⟩ <;>
    simp [heq]

theorem inWaitStart_ne_fault (s : State) (r : Fault) : inWaitStart s ≠ .fault r := by
  rcases inWaitStart_cases s with ⟨-, heq⟩ | ⟨_, _, -, -, heq⟩ | ⟨_, -, heq⟩ <;> simp [heq]

theorem inRead_ne_fault (s : State) (r : Fault) : inRead s ≠ .fault r := by
  rcases inRead_cases s with ⟨_, _, -, heq⟩ | ⟨-, -, heq⟩ | ⟨-, -, heq⟩ <;> simp [heq]

theorem performFrame_ne_fault (s : State) (pn : Byte) (a : FrameAction) (r : Fault) :
    performFrame s pn a ≠ .fault r := by
  rcases performFrame_cases s pn a with ⟨-, -, heq⟩ | ⟨-, -, heq⟩ | ⟨-, -, heq⟩ <;> simp [heq]

/-- R240 and log 24: the one fault of the whole instruction set. -/
theorem exec_fault {i : Instr} {s : State} {r : Fault} (h : exec i s = .fault r) :
    i = .outSendPackage ∧ 8 < s.ocnt.toNat := by
  cases i with
  | data | ack | nack | reset | inProcessIncomingData =>
    exact absurd (afterTransition_fault h) (performFrame_ne_fault _ _ _ r)
  | tick | sendReset | resetNumbering | crc16 | prepare | validate => exact absurd h (whenIdle_ne_fault _ _ r)
  | outReadData => exact absurd (afterTransition_fault h) (outReadData_ne_fault s r)
  | outSendPackage => exact ⟨rfl, outSendPackage_fault (afterTransition_fault h)⟩
  | outWaitForAckOrNack => exact absurd (afterTransition_fault h) (outWait_ne_fault s r)
  | inWaitForStartByte => exact absurd (afterTransition_fault h) (inWaitStart_ne_fault s r)
  | inReadIncomingData => exact absurd (afterTransition_fault h) (inRead_ne_fault s r)
  | outCorrupt | inCorrupt => cases h

theorem exec_outSendPackage_overfull {s : State} (hroom : 15 ≤ s.eo.availableForWrite) (hcnt : 8 < s.ocnt.toNat) :
    exec .outSendPackage s = .fault .ocntBeyondBuffer := by
  have hfault : outSendPackage s = .fault .ocntBeyondBuffer := by
    rcases outSendPackage_cases s with ⟨hless, -⟩ | ⟨-, -, heq⟩ | ⟨-, hle, -⟩
    · omega
    · exact heq
    · omega
  show afterTransition .outgoing (outSendPackage s) = _
  rw [hfault]
  rfl

/-! ## A sixteenth byte -/

theorem Frame.setIfInBounds_of_le {f : Frame} {i : Nat} (b : Byte) (h : 15 ≤ i) : f.setIfInBounds i b = f := by
  refine Vector.ext fun j (hj : j < 15) => Vector.getElem_setIfInBounds_ne hj ?_
  omega

/-- With ICNT = 15 the byte read is stored nowhere, and ICNT is the next free value. -/
theorem inRead_full {s : State} {b : Byte} {rest : List Byte} (hei : s.ei.bytes = b :: rest) (hicnt : s.icnt = 15) :
    inRead s = .progress { s with
      ei := ⟨rest, s.ei.capacity⟩, icnt := Config.freeIcnt s.freeCount
      ist := if (Config.freeIcnt s.freeCount).toNat = 15 then 2 else s.ist, freeCount := s.freeCount + 1 } := by
  have hfull : s.icnt.toNat = 15 := congrArg BitVec.toNat hicnt
  have hkeep : s.ibuf.setIfInBounds s.icnt.toNat b = s.ibuf := Frame.setIfInBounds_of_le b hfull.ge
  obtain ⟨hnext, hfree⟩ : s.nextIcnt = Config.freeIcnt s.freeCount ∧ s.nextFreeCount = s.freeCount + 1 := by
    rcases s.nextIcnt_cases with ⟨hlt, -, -⟩ | ⟨-, hnext, hfree⟩
    · omega
    · exact ⟨hnext, hfree⟩
  rcases inRead_cases s with ⟨b', rest', hei', heq⟩ | ⟨hnil, -⟩ | ⟨hnil, -⟩
  · obtain ⟨rfl, rfl⟩ := List.cons.inj (hei.symm.trans hei')
    rw [heq, hkeep, hnext, hfree]
  · exact absurd (hei.symm.trans hnil) (List.cons_ne_nil b rest)
  · exact absurd (hei.symm.trans hnil) (List.cons_ne_nil b rest)

/-- Settles O32: SEND_PACKAGE's fault, that there is no other, and the sixteenth byte of READ_INCOMING_DATA. -/
theorem outOfRangeCounts : Obligations.OutOfRangeCounts := by
  refine ⟨fun s hroom hcnt => exec_outSendPackage_overfull hroom hcnt, fun i s r h => exec_fault h, ?_⟩
  intro s b rest hei hicnt
  show afterTransition .incoming (inRead s) = _
  rw [inRead_full hei hicnt]
  simp only [← BitVec.toNat_inj]
  rfl

end Sys2Proof.Machine

/-! # The state family: contents that hold no defined value are never read (R38)

A simulation: states that agree on what is defined stay so under every operation, every transition and every command, and
they take the same branch everywhere. -/

namespace Sys2Proof.Safety

open Sys2Proof.Machine

/-! ## Taking agreement apart -/

/-- The other state is the first with other contents in the five registers of R38, equal where they are defined. -/
theorem AgreeOnDefined.exists_contents {s t : State} (h : AgreeOnDefined s t) :
    ∃ obuf ibuf oreadMark oackMark irxMark,
      t = { s with obuf := obuf, ibuf := ibuf, oreadMark := oreadMark, oackMark := oackMark, irxMark := irxMark } ∧
      s.obuf.toList.take s.ocnt.toNat = obuf.toList.take s.ocnt.toNat ∧
      s.ibuf.toList.take s.icnt.toNat = ibuf.toList.take s.icnt.toNat ∧
      (s.ocnt ≠ 0 → s.oreadMark = oreadMark) ∧ (s.ost = 2 → s.oackMark = oackMark) ∧
      (s.ist = 1 → s.irxMark = irxMark) :=
  ⟨_, _, _, _, _, h⟩

/-- Nothing is defined where the count is 0. -/
theorem take_of_count_zero {α : Type} (l l' : List α) {n : BitVec 4} (h : n = 0) : l.take n.toNat = l'.take n.toNat := by
  rw [h]
  rfl

/-- Lists of one length that agree up to `i` agree up to `i + 1` once both have the same byte there. -/
theorem take_succ_set {α : Type} {l l' : List α} {i : Nat} (b : α) (h : l.take i = l'.take i)
    (hlen : l.length = l'.length) : (l.set i b).take (i + 1) = (l'.set i b).take (i + 1) := by
  rw [List.take_add_one, List.take_add_one, List.take_set, List.take_set, h]
  simp [List.getElem?_set, hlen]

/-- A byte stored at the end of a counted part is counted. -/
theorem take_store {n : Nat} {v w : Vector Byte n} {c : BitVec 4} (b : Byte) (hc : c.toNat < 15)
    (h : v.toList.take c.toNat = w.toList.take c.toNat) :
    (v.setIfInBounds c.toNat b).toList.take (c + 1).toNat = (w.setIfInBounds c.toNat b).toList.take (c + 1).toNat := by
  have hnext : (c + 1).toNat = c.toNat + 1 := by bv_omega
  rw [hnext, Vector.toList_setIfInBounds, Vector.toList_setIfInBounds]
  exact take_succ_set b h (v.length_toList.trans w.length_toList.symm)

/-- A complete frame is defined in all its bytes. -/
theorem frame_eq_of_complete {f g : Frame} {c : BitVec 4} (hc : c = 15)
    (h : f.toList.take c.toNat = g.toList.take c.toNat) : f = g := by
  subst hc
  have hall : ∀ f : Frame, f.toList.take (15 : BitVec 4).toNat = f.toList := fun f => List.take_of_length_le f.length_toList.le
  rw [hall, hall] at h
  exact Vector.toList_inj.mp h

namespace AgreeOnDefined

variable {s t : State}

/-! ## What the rules branch on is the same -/

theorem phase_eq (h : AgreeOnDefined s t) : t.phase = s.phase := by rw [h.1]
theorem cmd_eq (h : AgreeOnDefined s t) : t.cmd = s.cmd := by rw [h.1]
theorem ost_eq (h : AgreeOnDefined s t) : t.ost = s.ost := by rw [h.1]
theorem ist_eq (h : AgreeOnDefined s t) : t.ist = s.ist := by rw [h.1]
theorem ocnt_eq (h : AgreeOnDefined s t) : t.ocnt = s.ocnt := by rw [h.1]
theorem opn_eq (h : AgreeOnDefined s t) : t.opn = s.opn := by rw [h.1]
theorem pq_eq (h : AgreeOnDefined s t) : t.pq = s.pq := by rw [h.1]
theorem silMark_eq (h : AgreeOnDefined s t) : t.silMark = s.silMark := by rw [h.1]
theorem po_eq (h : AgreeOnDefined s t) : t.po = s.po := by rw [h.1]
theorem ei_eq (h : AgreeOnDefined s t) : t.ei = s.ei := by rw [h.1]

theorem expired_eq (h : AgreeOnDefined s t) (mark : Time) (timeout : Nat) :
    t.expired mark timeout = s.expired mark timeout := by
  rw [h.1]
  rfl

theorem eoHasRoom_eq (h : AgreeOnDefined s t) : t.eoHasRoom = s.eoHasRoom := by
  rw [h.1]
  rfl

/-! ## The operations that keep agreement -/

theorem emit (h : AgreeOnDefined s t) (e : DiagEvent) : AgreeOnDefined (s.emit e) (t.emit e) := by
  obtain ⟨_, _, _, _, _, rfl, hdefined⟩ := h.exists_contents
  exact ⟨rfl, hdefined⟩

theorem respond (h : AgreeOnDefined s t) (bs : List Byte) : AgreeOnDefined (s.respond bs) (t.respond bs) := by
  obtain ⟨_, _, _, _, _, rfl, hdefined⟩ := h.exists_contents
  exact ⟨rfl, hdefined⟩

theorem writeFrame (h : AgreeOnDefined s t) (f : Frame) : AgreeOnDefined (s.writeFrame f) (t.writeFrame f) := by
  obtain ⟨_, _, _, _, _, rfl, hdefined⟩ := h.exists_contents
  exact ⟨rfl, hdefined⟩

theorem sample (h : AgreeOnDefined s t) (now : Time) : AgreeOnDefined (s.sample now) (t.sample now) := by
  obtain ⟨_, _, _, _, _, rfl, hdefined⟩ := h.exists_contents
  exact ⟨rfl, hdefined⟩

theorem setPhase (h : AgreeOnDefined s t) (phase : Phase) :
    AgreeOnDefined { s with phase := phase } { t with phase := phase } := by
  obtain ⟨_, _, _, _, _, rfl, hdefined⟩ := h.exists_contents
  exact ⟨rfl, hdefined⟩

theorem setCmd (h : AgreeOnDefined s t) (bytes : List Byte) :
    AgreeOnDefined { s with cmd := bytes } { t with cmd := bytes } := by
  obtain ⟨_, _, _, _, _, rfl, hdefined⟩ := h.exists_contents
  exact ⟨rfl, hdefined⟩

theorem pqDropHead (h : AgreeOnDefined s t) : AgreeOnDefined s.pqDropHead t.pqDropHead := by
  obtain ⟨_, _, _, _, _, rfl, hdefined⟩ := h.exists_contents
  exact ⟨rfl, hdefined⟩

theorem pqPush (h : AgreeOnDefined s t) (e : PendingMessage) : AgreeOnDefined (s.pqPush e) (t.pqPush e) := by
  obtain ⟨_, _, _, _, _, rfl, hdefined⟩ := h.exists_contents
  dsimp only [State.pqPush]
  split_ifs
  · exact ⟨rfl, hdefined⟩
  · exact ⟨rfl, hdefined⟩

theorem resetOutgoingMachine (h : AgreeOnDefined s t) :
    AgreeOnDefined s.resetOutgoingMachine t.resetOutgoingMachine := by
  obtain ⟨_, _, _, _, _, rfl, hobuf, hibuf, hread, hack, hrx⟩ := h.exists_contents
  exact ⟨rfl, take_of_count_zero _ _ rfl, hibuf, fun hne => absurd rfl hne, nofun, hrx⟩

theorem resetIncomingMachine (h : AgreeOnDefined s t) :
    AgreeOnDefined s.resetIncomingMachine t.resetIncomingMachine := by
  obtain ⟨_, _, _, _, _, rfl, hobuf, hibuf, hread, hack, hrx⟩ := h.exists_contents
  exact ⟨rfl, hobuf, take_of_count_zero _ _ rfl, hread, hack, nofun⟩

theorem resetPacketNumbering (h : AgreeOnDefined s t) :
    AgreeOnDefined s.resetPacketNumbering t.resetPacketNumbering := by
  obtain ⟨_, _, _, _, _, rfl, -⟩ := h.exists_contents
  exact ⟨rfl, take_of_count_zero _ _ rfl, take_of_count_zero _ _ rfl, fun hne => absurd rfl hne, nofun, nofun⟩

theorem frameDone (h : AgreeOnDefined s t) : AgreeOnDefined s.frameDone t.frameDone := by
  obtain ⟨_, _, _, _, _, rfl, hobuf, hibuf, hread, hack, hrx⟩ := h.exists_contents
  exact ⟨rfl, hobuf, take_of_count_zero _ _ rfl, hread, hack, nofun⟩

theorem silenceCheck (h : AgreeOnDefined s t) : AgreeOnDefined s.silenceCheck t.silenceCheck := by
  rw [State.silenceCheck, State.silenceCheck, h.expired_eq, h.silMark_eq]
  split_ifs
  · exact (h.emit _).resetPacketNumbering
  · exact h

/-! ## The outside -/

theorem applyInput (h : AgreeOnDefined s t) (x : Input) : AgreeOnDefined (s.applyInput x) (t.applyInput x) := by
  obtain ⟨_, _, _, _, _, rfl, hdefined⟩ := h.exists_contents
  cases x with
  | por now => exact ⟨rfl, rfl, rfl, fun _ => rfl, fun _ => rfl, fun _ => rfl⟩
  | _ => exact ⟨rfl, hdefined⟩

theorem applyInputs (batch : List Input) :
    ∀ {s t : State}, AgreeOnDefined s t → AgreeOnDefined (s.applyInputs batch) (t.applyInputs batch) := by
  induction batch with
  | nil => exact id
  | cons x xs ih => exact fun h => ih (h.applyInput x)

theorem takeInputs (h : AgreeOnDefined s t) : AgreeOnDefined s.takeInputs t.takeInputs := by
  obtain ⟨_, _, _, _, _, rfl, hdefined⟩ := h.exists_contents
  exact applyInputs _ ⟨rfl, hdefined⟩

/-! ## The scheduler's count -/

theorem machineDone (h : AgreeOnDefined s t) (m : MachineId) : AgreeOnDefined (s.machineDone m) (t.machineDone m) := by
  cases m with
  | outgoing => exact h.setPhase _
  | incoming => exact (h.setPhase _).respond _

theorem countProgress (h : AgreeOnDefined s t) (m : MachineId) (n : Nat) :
    AgreeOnDefined (s.countProgress m n) (t.countProgress m n) := by
  unfold State.countProgress
  split_ifs
  · exact h.setPhase _
  · exact (h.emit _).machineDone m

theorem afterProgress (h : AgreeOnDefined s t) (m : MachineId) :
    AgreeOnDefined (s.afterProgress m) (t.afterProgress m) := by
  rw [State.afterProgress, State.afterProgress, h.phase_eq]
  split
  · exact h
  · split_ifs
    · exact h.countProgress m _
    · exact h

theorem afterNoProgress (h : AgreeOnDefined s t) (m : MachineId) :
    AgreeOnDefined (s.afterNoProgress m) (t.afterNoProgress m) := by
  rw [State.afterNoProgress, State.afterNoProgress, h.phase_eq]
  split
  · exact h
  · split_ifs
    · exact h.machineDone m
    · exact h

end AgreeOnDefined

/-! ## Answers that agree -/

/-- Two transitions answer alike. -/
inductive TransitionsAgree : Transition → Transition → Prop
  | progress {s t : State} (h : AgreeOnDefined s t) : TransitionsAgree (.progress s) (.progress t)
  | noProgress {s t : State} (h : AgreeOnDefined s t) : TransitionsAgree (.noProgress s) (.noProgress t)
  | fault (r : Fault) : TransitionsAgree (.fault r) (.fault r)

/-- Two steps answer alike. -/
inductive OutcomesAgree : Host.Outcome State Fault Refusal → Host.Outcome State Fault Refusal → Prop
  | next {s t : State} (h : AgreeOnDefined s t) : OutcomesAgree (.next s) (.next t)
  | fault (r : Fault) : OutcomesAgree (.fault r) (.fault r)
  | refused (r : Refusal) : OutcomesAgree (.refused r) (.refused r)

/-- What agrees with a next state is one. -/
theorem OutcomesAgree.next_left {s : State} {o : Host.Outcome State Fault Refusal} (h : OutcomesAgree (.next s) o) :
    ∃ t, o = .next t ∧ AgreeOnDefined s t := by
  cases h with
  | next h => exact ⟨_, rfl, h⟩

/-- What agrees with a fault is the same fault. -/
theorem OutcomesAgree.fault_left {r : Fault} {o : Host.Outcome State Fault Refusal} (h : OutcomesAgree (.fault r) o) :
    o = .fault r := by
  cases h
  rfl

theorem afterTransition_agree {a b : Transition} (m : MachineId) (h : TransitionsAgree a b) :
    OutcomesAgree (afterTransition m a) (afterTransition m b) := by
  cases h with
  | progress h => exact .next (h.afterProgress m)
  | noProgress h => exact .next (h.afterNoProgress m)
  | fault r => exact .fault r

namespace AgreeOnDefined

variable {s t : State}

/-! ## The outgoing transitions -/

/-- The read timer is looked at only with a byte collected, when OREAD_MARK is defined. -/
theorem readTimer (h : AgreeOnDefined s t) : TransitionsAgree (readTimer s) (readTimer t) := by
  have hsame : (0 < t.ocnt.toNat ∧ t.expired t.oreadMark Config.readTimeoutMs = true) ↔
      (0 < s.ocnt.toNat ∧ s.expired s.oreadMark Config.readTimeoutMs = true) := by
    have ⟨_, _, _, hread, _, _⟩ := h
    rw [h.ocnt_eq, h.expired_eq]
    refine and_congr_right fun hpos => ?_
    rw [hread fun hzero => by simp [hzero] at hpos]
  simp only [Machine.readTimer, hsame]
  split_ifs
  · obtain ⟨_, _, _, _, _, rfl, hobuf, hibuf, hread, -, hrx⟩ := h.exists_contents
    exact .progress ⟨rfl, hobuf, hibuf, hread, nofun, hrx⟩
  · exact .noProgress h

/-- The byte stored is counted, and the read timer starts with the first one. -/
theorem collect (h : AgreeOnDefined s t) (b : Byte) (hroom : s.ocnt.toNat < 8) :
    AgreeOnDefined
      { s with po := s.po.dropOldest, oreadMark := if s.ocnt = 0 then s.now else s.oreadMark
               obuf := s.obuf.setIfInBounds s.ocnt.toNat b, ocnt := s.ocnt + 1 }
      { t with po := s.po.dropOldest, oreadMark := if s.ocnt = 0 then t.now else t.oreadMark
               obuf := t.obuf.setIfInBounds s.ocnt.toNat b, ocnt := s.ocnt + 1 } := by
  obtain ⟨_, _, _, _, _, rfl, hobuf, hibuf, hread, hack, hrx⟩ := h.exists_contents
  refine ⟨rfl, take_store b (by omega) hobuf, hibuf, fun _ => ?_, hack, hrx⟩
  by_cases hzero : s.ocnt = 0
  · exact (if_pos hzero).trans (if_pos hzero).symm
  · exact (if_neg hzero).trans ((hread hzero).trans (if_neg hzero).symm)

theorem outReadData (h : AgreeOnDefined s t) : TransitionsAgree (outReadData s) (outReadData t) := by
  rw [Machine.outReadData, Machine.outReadData, h.po_eq, h.ocnt_eq]
  split
  · rename_i b rest _
    by_cases hroom : s.ocnt.toNat < Config.payloadMax
    · rw [if_pos hroom, if_pos hroom]
      exact .progress (h.collect b hroom)
    · rw [if_neg hroom, if_neg hroom]
      exact h.readTimer
  · exact h.readTimer

/-- The frame sent is made of the counted bytes only. -/
theorem dataFrame (h : AgreeOnDefined s t) : t.dataFrame = s.dataFrame := by
  obtain ⟨_, _, _, _, _, rfl, hobuf, -⟩ := h.exists_contents
  exact congrArg (prepare Config.typeData s.opn) hobuf.symm

theorem outSendPackage (h : AgreeOnDefined s t) : TransitionsAgree (outSendPackage s) (outSendPackage t) := by
  rw [Machine.outSendPackage, Machine.outSendPackage, h.eoHasRoom_eq, h.ocnt_eq, h.dataFrame]
  split_ifs
  · exact .noProgress (h.emit _)
  · exact .fault _
  · obtain ⟨_, _, _, _, _, rfl, hobuf, hibuf, hread, -, hrx⟩ := h.exists_contents
    exact .progress ⟨rfl, hobuf, hibuf, hread, fun _ => rfl, hrx⟩

theorem retryOrAbandon (h : AgreeOnDefined s t) : AgreeOnDefined s.retryOrAbandon t.retryOrAbandon := by
  obtain ⟨_, _, _, _, _, rfl, hobuf, hibuf, hread, hack, hrx⟩ := h.exists_contents
  dsimp only [State.retryOrAbandon]
  split_ifs
  · exact ⟨rfl, hobuf, hibuf, hread, nofun, hrx⟩
  · exact ⟨rfl, take_of_count_zero _ _ rfl, hibuf, fun hne => absurd rfl hne, nofun, hrx⟩

theorem acknowledged (h : AgreeOnDefined s t) : AgreeOnDefined s.acknowledged t.acknowledged := by
  obtain ⟨_, _, _, _, _, rfl, hobuf, hibuf, hread, hack, hrx⟩ := h.exists_contents
  dsimp only [State.acknowledged, State.advanceOPN]
  split_ifs
  · exact ⟨rfl, take_of_count_zero _ _ rfl, hibuf, fun hne => absurd rfl hne, nofun, hrx⟩
  · exact ⟨rfl, take_of_count_zero _ _ rfl, hibuf, fun hne => absurd rfl hne, nofun, hrx⟩

/-- The ACK timer is looked at in WAIT_FOR_ACK_OR_NACK, where OACK_MARK is defined. -/
theorem outWait (h : AgreeOnDefined s t) (hst : s.ost = 2) : TransitionsAgree (outWait s) (outWait t) := by
  have ⟨_, _, _, _, hack, _⟩ := h
  simp only [Machine.outWait, h.pq_eq, h.opn_eq, h.expired_eq, ← hack hst]
  split
  · split_ifs
    · exact .progress h.pqDropHead.acknowledged
    · exact .progress h.pqDropHead.retryOrAbandon
    · exact .progress h.pqDropHead
  · split_ifs
    · exact .progress h.retryOrAbandon
    · exact .noProgress h

/-! ## The incoming transitions -/

theorem inWaitStart (h : AgreeOnDefined s t) : TransitionsAgree (inWaitStart s) (inWaitStart t) := by
  rw [Machine.inWaitStart, Machine.inWaitStart, h.ei_eq]
  split
  · exact .noProgress h
  · obtain ⟨_, _, _, _, _, rfl, hobuf, hibuf, hread, hack, hrx⟩ := h.exists_contents
    split_ifs
    · exact .progress ⟨rfl, hobuf, hibuf, hread, hack, hrx⟩
    · exact .progress ⟨rfl, hobuf, take_of_count_zero _ _ rfl, hread, hack, fun _ => rfl⟩

/-- What is defined of IBUF once a byte is stored: with ICNT = 15 the whole of it is, and stays. -/
theorem take_stored_byte {f : Frame} (b : Byte) (h : s.ibuf.toList.take s.icnt.toNat = f.toList.take s.icnt.toNat) :
    (s.ibuf.setIfInBounds s.icnt.toNat b).toList.take s.nextIcnt.toNat =
      (f.setIfInBounds s.icnt.toNat b).toList.take s.nextIcnt.toNat := by
  rcases s.nextIcnt_cases with ⟨hlt, hnext, -⟩ | ⟨hfull, -, -⟩
  · rw [hnext]
    exact take_store b hlt h
  · rw [frame_eq_of_complete hfull h]

/-- The reception timer is looked at in READ_INCOMING_DATA, where IRX_MARK is defined. -/
theorem inRead (h : AgreeOnDefined s t) (hst : s.ist = 1) : TransitionsAgree (inRead s) (inRead t) := by
  obtain ⟨_, _, _, _, _, ht, hobuf, hibuf, hread, hack, hrx⟩ := h.exists_contents
  have hexpired : t.expired t.irxMark Config.rxTimeoutMs = s.expired s.irxMark Config.rxTimeoutMs := by
    rw [h.expired_eq, ht, hrx hst]
  rw [Machine.inRead, Machine.inRead, h.ei_eq, hexpired]
  subst ht
  split
  · exact .progress ⟨rfl, hobuf, take_stored_byte _ hibuf, hread, hack, fun _ => hrx hst⟩
  · split_ifs
    · exact .progress ⟨rfl, hobuf, take_of_count_zero _ _ rfl, hread, hack, nofun⟩
    · exact .noProgress h

/-! ## Processing a frame: the same frame, the same action, the same commit -/

theorem frameAction_eq (h : AgreeOnDefined s t) (f : Frame) : frameAction t f = frameAction s f := by
  rw [h.1]
  rfl

theorem deliveryLacksRoom_eq (h : AgreeOnDefined s t) (a : FrameAction) :
    deliveryLacksRoom t a = deliveryLacksRoom s a := by
  rw [h.1]
  rfl

theorem reportInvalid (h : AgreeOnDefined s t) (a : FrameAction) :
    AgreeOnDefined (s.reportInvalid a) (t.reportInvalid a) := by
  unfold State.reportInvalid
  split
  · exact h.emit _
  · exact h

theorem deliverPayload (h : AgreeOnDefined s t) (pn : Byte) (a : FrameAction) :
    AgreeOnDefined (s.deliverPayload pn a) (t.deliverPayload pn a) := by
  unfold State.deliverPayload
  split
  · obtain ⟨_, _, _, _, _, rfl, hdefined⟩ := h.exists_contents
    exact ⟨rfl, hdefined⟩
  · exact h

theorem resetIfAsked (h : AgreeOnDefined s t) (a : FrameAction) :
    AgreeOnDefined (s.resetIfAsked a) (t.resetIfAsked a) := by
  unfold State.resetIfAsked
  split_ifs
  · exact h.resetPacketNumbering
  · exact h

theorem enqueueResponse (h : AgreeOnDefined s t) (a : FrameAction) :
    AgreeOnDefined (s.enqueueResponse a) (t.enqueueResponse a) := by
  unfold State.enqueueResponse
  split
  · exact h.pqPush _
  · exact h

theorem sendReply (h : AgreeOnDefined s t) (a : FrameAction) : AgreeOnDefined (s.sendReply a) (t.sendReply a) := by
  unfold State.sendReply
  split
  · exact h.writeFrame _
  · exact h

theorem commitFrame (h : AgreeOnDefined s t) (pn : Byte) (a : FrameAction) :
    AgreeOnDefined (commitFrame s pn a) (commitFrame t pn a) :=
  ((((h.reportInvalid a).deliverPayload pn a).resetIfAsked a).enqueueResponse a).sendReply a |>.frameDone

theorem performFrame (h : AgreeOnDefined s t) (pn : Byte) (a : FrameAction) :
    TransitionsAgree (performFrame s pn a) (performFrame t pn a) := by
  rw [Machine.performFrame, Machine.performFrame, h.eoHasRoom_eq, h.deliveryLacksRoom_eq]
  split_ifs
  · exact .noProgress (h.emit _)
  · exact .noProgress (h.emit _)
  · exact .progress (h.commitFrame pn a)

/-- A frame being processed is complete, so all of IBUF is defined. -/
theorem inProcess (h : AgreeOnDefined s t) (hfull : s.icnt = 15) : TransitionsAgree (inProcess s) (inProcess t) := by
  have ⟨_, _, hibuf, _⟩ := h
  rw [Machine.inProcess, Machine.inProcess, ← frame_eq_of_complete hfull hibuf, h.frameAction_eq]
  exact h.performFrame _ _

/-! ## The step -/

theorem transition (h : AgreeOnDefined s t) (hfull : s.ist = 2 → s.icnt = 15) (m : MachineId) :
    TransitionsAgree (transition m s) (transition m t) := by
  cases m with
  | outgoing =>
    simp only [Safety.transition, h.ost_eq]
    split_ifs with hread hsend hwait
    · exact h.outReadData
    · exact h.outSendPackage
    · exact h.outWait hwait
    · exact .progress (h.emit _).resetOutgoingMachine
  | incoming =>
    simp only [Safety.transition, h.ist_eq]
    split_ifs with hstart hread hprocess
    · exact h.inWaitStart
    · exact h.inRead hread
    · exact h.inProcess (hfull hprocess)
    · exact .progress (h.emit _).resetIncomingMachine

theorem whenIdle {s' t' : State} (h : AgreeOnDefined s t) (h' : AgreeOnDefined s' t') :
    OutcomesAgree (whenIdle s s') (whenIdle t t') := by
  rw [Machine.whenIdle, Machine.whenIdle, h.phase_eq]
  split_ifs
  · exact .next h'
  · exact .refused _

theorem sendReset (h : AgreeOnDefined s t) (now : Time) : AgreeOnDefined (s.sendReset now) (t.sendReset now) := by
  rw [State.sendReset, State.sendReset, h.eoHasRoom_eq]
  split_ifs
  · exact ((h.sample now).writeFrame _).resetPacketNumbering.respond _
  · exact ((h.sample now).emit _).resetPacketNumbering.respond _

theorem exec_command (h : AgreeOnDefined s t) {bytes rest : List Byte} {i : Instr}
    (hd : decodeCommand bytes = .complete i rest) : OutcomesAgree (exec i s) (exec i t) := by
  rcases decodeCommand_complete hd with ⟨now, rfl⟩ | ⟨now, rfl⟩ | ⟨now, rfl⟩ | ⟨bs, rfl⟩ | ⟨type, pn, payload, rfl⟩ |
    ⟨f, rfl⟩
  · exact h.whenIdle ((h.sample now).silenceCheck.setPhase _)
  · exact h.whenIdle (h.sendReset now)
  · exact h.whenIdle ((h.sample now).resetPacketNumbering.respond _)
  · exact h.whenIdle (h.respond _)
  · exact h.whenIdle (h.respond _)
  · exact h.whenIdle (h.respond _)

/-- The outside keeps the premise on the frame being processed: `por` leaves none. -/
theorem takeInputs_complete (hfull : s.ist = 2 → s.icnt = 15) : s.takeInputs.ist = 2 → s.takeInputs.icnt = 15 := by
  refine takeInputs_keeps (P := fun s => s.ist = 2 → s.icnt = 15) (fun _ _ h => h) ?_ hfull
  intro s x h
  cases x with
  | por => exact nofun
  | _ => exact h

theorem step (hagree : AgreeOnDefined s t) (hfull : s.ist = 2 → s.icnt = 15) : OutcomesAgree (step s) (step t) := by
  have h := hagree.takeInputs
  cases hphase : s.takeInputs.phase with
  | running m n =>
    rw [step_of_running hphase, step_of_running (h.phase_eq.trans hphase)]
    exact afterTransition_agree m (h.transition (takeInputs_complete hfull) m)
  | idle =>
    have hphase' := h.phase_eq.trans hphase
    cases hd : decodeCommand s.takeInputs.cmd with
    | complete i rest =>
      rw [step_of_complete hphase hd, step_of_complete hphase' (h.cmd_eq ▸ hd)]
      exact (h.setCmd rest).exec_command hd
    | incomplete =>
      rw [step_of_incomplete hphase hd, step_of_incomplete hphase' (h.cmd_eq ▸ hd)]
      exact .next h
    | reserved c rest =>
      rw [step_of_reserved hphase hd, step_of_reserved hphase' (h.cmd_eq ▸ hd)]
      exact .next ((h.setCmd rest).respond _)

end AgreeOnDefined

/-- Settles O53: one step is simulated, whatever the undefined contents are. -/
theorem unspecifiedContentsAreNeverRead : Obligations.UnspecifiedContentsAreNeverRead := by
  intro s1 s2 hfull hagree
  have h : OutcomesAgree (step s1) (step s2) := hagree.step hfull
  refine ⟨fun t1 h1 => ?_, fun r h1 => ?_⟩ <;> rw [h1] at h
  · exact h.next_left
  · exact h.fault_left

end Sys2Proof.Safety

/-! # The memory family: what a step adds to EO, and what the outside does to the streams -/

namespace Sys2Proof.Machine

/-! ## Every frame that the block sends validates (R85, R114, R119) -/

/-- The length rule admits the four packet types only (R82). -/
theorem type_le_three_of_lengthOk {type len : Byte} (h : lengthOk type len = true) : type.toNat ≤ 3 := by
  unfold lengthOk at h
  split_ifs at h with hdata hempty hnack
  · exact hdata ▸ by decide
  · rcases hempty with rfl | rfl <;> decide
  · exact hnack ▸ by decide

/-- R119: `prepare` sets the markers and the CRC that `validate` looks for, so the length rule is all that is left. -/
theorem validate_prepare {type : Byte} {p : List Byte} (h : lengthOk type (BitVec.ofNat 8 p.length) = true)
    (pn : Byte) : validate (prepare type pn p) = none := by
  rw [validate_eq_none_iff, prepare]
  refine ⟨frameOfFields_start .., frameOfFields_stop .., type_le_three_of_lengthOk h, h, ?_⟩
  rw [frameCrcField_frameOfFields]
  exact frameCrc_ignores_crc ..

theorem validate_ackFrame (pn : Byte) : validate (ackFrame pn) = none := validate_prepare rfl pn

theorem validate_nackFrame (pn : Byte) (r : NackReason) : validate (nackFrame pn r) = none := validate_prepare rfl pn

theorem validate_resetFrame : validate resetFrame = none := validate_prepare rfl 0

theorem State.outPayload_length_le (s : State) : s.outPayload.length ≤ Config.payloadMax :=
  (List.length_take_le' _ _).trans_eq s.obuf.length_toList

theorem validate_dataFrame (s : State) : validate s.dataFrame = none := by
  refine validate_prepare ?_ s.opn
  simp only [lengthOk, if_true, decide_eq_true_eq, BitVec.toNat_ofNat]
  exact (Nat.mod_le _ _).trans s.outPayload_length_le

/-! ## What EO gains (R66) -/

/-- From `s` to `t` EO stays as it is, or gains one whole frame that validates and has room. -/
def EoKeptOrGainsFrame (s t : State) : Prop :=
  t.eo = s.eo ∨ ∃ f : Frame, validate f = none ∧ t.eo = s.eo.write f.toList ∧ 15 ≤ s.eo.availableForWrite

section
variable {s t : State}

/-- Of the commands only SEND_RESET writes to EO (R211). -/
theorem CommandResult.eo (h : CommandResult s t) : EoKeptOrGainsFrame s t := by
  cases h with
  | sendReset now hroom => exact .inr ⟨resetFrame, validate_resetFrame, rfl, hroom⟩
  | _ => exact .inl rfl

/-- Of the outgoing transitions only SEND_PACKAGE writes to EO (R141). -/
theorem OutgoingResult.eo (h : OutgoingResult s t) : EoKeptOrGainsFrame s t := by
  cases h with
  | send hst hroom => exact .inr ⟨s.dataFrame, validate_dataFrame s, rfl, hroom⟩
  | _ => exact .inl rfl

/-- Of the incoming transitions only PROCESS_INCOMING_DATA writes to EO: an ACK (R175, R176) or a NACK (R177). -/
theorem IncomingResult.eo (h : IncomingResult s t) : EoKeptOrGainsFrame s t := by
  cases h with
  | deliver hst hvalid htype hnew hroom => exact .inr ⟨_, validate_ackFrame _, rfl, hroom⟩
  | duplicate hst hroom | localReset hst hroom => exact .inr ⟨_, validate_ackFrame _, rfl, hroom⟩
  | reject r hst hroom => exact .inr ⟨_, validate_nackFrame _ r, rfl, hroom⟩
  | _ => exact .inl rfl

theorem step_eo (h : step s = .next t) : EoKeptOrGainsFrame s.takeInputs t := by
  rcases step_cases h with ⟨-, rest, hr⟩ | ⟨n, v, -, hr, hc⟩ | ⟨n, v, -, hr, hc⟩
  · exact hr.eo
  · obtain ⟨phase, resp, diag, rfl⟩ := hc.frame
    exact hr.eo
  · obtain ⟨phase, resp, diag, rfl⟩ := hc.frame
    exact hr.eo

end

/-- Settles O55: the two ways of `step_eo`, read off EO's bytes and its capacity. -/
theorem eoGainsOnlyValidFrames : Obligations.EoGainsOnlyValidFrames := by
  intro s t h
  rcases step_eo h with heo | ⟨f, hvalid, heo, hroom⟩ <;> rw [heo]
  · exact ⟨rfl, .inl rfl⟩
  · exact ⟨rfl, .inr ⟨f, hvalid, rfl, hroom⟩⟩

/-! ## What the outside does to the streams (R71, R72) -/

/-- Queueing adds at the end (R67, log 7). -/
theorem Port.bytes_prefix_fill (p : Port) (bs : List Byte) : p.bytes <+: (p.fill bs).bytes := List.prefix_append _ _

/-- Draining removes at the head (R72). -/
theorem Port.drain_bytes_suffix (p : Port) (n : Nat) : (p.drain n).bytes <:+ p.bytes := List.drop_suffix n p.bytes

/-- Settles O59: nothing but the streams changes by the law `State.applyInput_frame`; each action moves one of them, in
its direction. -/
theorem outsideMovesStreamsOneWay : Obligations.OutsideMovesStreamsOneWay := by
  intro s x hx
  refine ⟨s.applyInput_frame x hx, ?_⟩
  cases x with
  | por now => exact absurd rfl (hx now)
  | command bs =>
    exact ⟨List.prefix_append _ _, List.prefix_rfl, List.prefix_rfl,
      List.suffix_rfl, List.suffix_rfl, rfl, rfl, rfl, rfl⟩
  | producePO bs =>
    exact ⟨List.prefix_rfl, s.po.bytes_prefix_fill bs, List.prefix_rfl,
      List.suffix_rfl, List.suffix_rfl, rfl, rfl, rfl, rfl⟩
  | deliverEI bs =>
    exact ⟨List.prefix_rfl, List.prefix_rfl, s.ei.bytes_prefix_fill bs,
      List.suffix_rfl, List.suffix_rfl, rfl, rfl, rfl, rfl⟩
  | drainEO n =>
    exact ⟨List.prefix_rfl, List.prefix_rfl, List.prefix_rfl,
      s.eo.drain_bytes_suffix n, List.suffix_rfl, rfl, rfl, rfl, rfl⟩
  | drainPI n =>
    exact ⟨List.prefix_rfl, List.prefix_rfl, List.prefix_rfl,
      List.suffix_rfl, s.pi.drain_bytes_suffix n, rfl, rfl, rfl, rfl⟩

end Sys2Proof.Machine

/-! # The encoding family: decode and encode are inverse, and a step runs what is decoded -/

namespace Sys2Proof

open Machine

/-! ## Frames (R80, R81): the frame decoder inverts the encoder -/

/-- The decoder reads an encoded frame back, whatever its length and CRC are (log 15). -/
theorem decodeFrame_of_encode {i : Instr} {f : Frame} (h : encode i = .frame f) : decodeFrame f = .instr i := by
  cases i with
  | data pn len p crc | ack pn len p crc | nack pn len p crc | reset pn len p crc =>
    obtain rfl := Code.frame.inj h
    simp [decodeFrame]
  | _ => cases h

theorem encode_of_decodeFrame {i : Instr} {f : Frame} (h : decodeFrame f = .instr i) : encode i = .frame f := by
  unfold decodeFrame at h
  split_ifs at h with hstart hstop htype htype htype htype <;> cases h
  all_goals
    have hfields := frameOfFields_eta f (not_not.mp hstart) (not_not.mp hstop)
    rw [htype] at hfields
    exact congrArg Code.frame hfields

/-- The frame decoder answers `i` exactly for the frame that encodes `i`. -/
theorem decodeFrame_eq_instr_iff {i : Instr} {f : Frame} : decodeFrame f = .instr i ↔ encode i = .frame f :=
  ⟨encode_of_decodeFrame, decodeFrame_of_encode⟩

/-- The frames that encode an instruction are those with both markers and a packet type. -/
theorem exists_encode_frame_iff (f : Frame) :
    (∃ i, encode i = .frame f) ↔
      f[0] = Config.startByte ∧ f[14] = Config.stopByte ∧ (frameType f).toNat ≤ 3 := by
  constructor
  · rintro ⟨i, h⟩
    cases i with
    | data pn len p crc | ack pn len p crc | nack pn len p crc | reset pn len p crc =>
      obtain rfl := Code.frame.inj h
      simp
    | _ => cases h
  · rintro ⟨hstart, hstop, htype⟩
    have hfields := frameOfFields_eta f hstart hstop
    rcases packetType_cases htype with h | h | h | h <;> rw [h] at hfields
    · exact ⟨.data .., congrArg Code.frame hfields⟩
    · exact ⟨.ack .., congrArg Code.frame hfields⟩
    · exact ⟨.nack .., congrArg Code.frame hfields⟩
    · exact ⟨.reset .., congrArg Code.frame hfields⟩

/-! ## Operands (R88, R90): what is taken is the head of the operand bytes -/

theorem takeTime_eq_some_iff {ops rest : List Byte} {t : Time} :
    takeTime ops = some (t, rest) ↔ ops = bytesOfTime t ++ rest := by
  refine ⟨fun h => ?_, fun h => h ▸ takeTime_append t rest⟩
  unfold takeTime at h
  split at h
  · cases h
    rw [bytesOfTime_timeOfBytes]
    rfl
  · cases h

theorem takeFrame_eq_some_iff {ops rest : List Byte} {f : Frame} :
    takeFrame ops = some (f, rest) ↔ ops = f.toList ++ rest := by
  refine ⟨fun h => ?_, fun h => h ▸ takeFrame_append f rest⟩
  unfold takeFrame at h
  split_ifs at h
  cases h
  exact (List.take_append_drop Config.frameLen ops).symm

theorem takeBytes_eq_some_iff {n : Nat} {ops bs rest : List Byte} :
    takeBytes n ops = some (bs, rest) ↔ ops = bs ++ rest ∧ bs.length = n := by
  refine ⟨takeBytes_some, ?_⟩
  rintro ⟨rfl, rfl⟩
  exact takeBytes_append bs rest

/-- A count byte holds the length of a list, and the list is short enough for it. -/
theorem length_eq_toNat_iff {bs : List Byte} {n : Byte} :
    bs.length = n.toNat ↔ bs.length ≤ 255 ∧ n = BitVec.ofNat 8 bs.length := by
  have hn := n.isLt
  rw [← BitVec.toNat_inj, BitVec.toNat_ofNat]
  omega

theorem takeCrcOperands_eq_some_iff {ops bs rest : List Byte} :
    takeCrcOperands ops = some (bs, rest) ↔
      bs.length ≤ 255 ∧ ops = BitVec.ofNat 8 bs.length :: bs ++ rest := by
  cases ops with
  | nil => simp [takeCrcOperands]
  | cons n ops =>
    rw [takeCrcOperands, takeBytes_eq_some_iff, length_eq_toNat_iff, List.cons_append, List.cons.injEq]
    tauto

theorem takePrepareOperands_eq_some_iff {ops payload rest : List Byte} {type pn : Byte} :
    takePrepareOperands ops = some ((type, pn, payload), rest) ↔
      payload.length ≤ 255 ∧ ops = type :: pn :: BitVec.ofNat 8 payload.length :: payload ++ rest := by
  match ops with
  | [] | [_] | [_, _] => simp [takePrepareOperands]
  | type' :: pn' :: len :: ops =>
    have htaken : takePrepareOperands (type' :: pn' :: len :: ops) = some ((type, pn, payload), rest) ↔
        type' = type ∧ pn' = pn ∧ takeBytes len.toNat ops = some (payload, rest) := by
      simp only [takePrepareOperands, Option.map_eq_some_iff, Prod.mk.injEq, Prod.exists]
      constructor
      · rintro ⟨_, _, htake, ⟨rfl, rfl, rfl⟩, rfl⟩
        exact ⟨rfl, rfl, htake⟩
      · rintro ⟨rfl, rfl, htake⟩
        exact ⟨payload, rest, htake, ⟨rfl, rfl, rfl⟩, rfl⟩
    rw [htaken, takeBytes_eq_some_iff, length_eq_toNat_iff]
    simp only [List.cons_append, List.cons.injEq]
    tauto

/-! ## Commands (R88 to R90): the command decoder inverts the encoder at the head of a stream -/

theorem commandOf_eq_complete_iff {α : Type} {mk : α → Instr} {o : Option (α × List Byte)} {i : Instr}
    {rest : List Byte} : commandOf mk o = .complete i rest ↔ ∃ x, o = some (x, rest) ∧ i = mk x := by
  refine ⟨commandOf_complete, ?_⟩
  rintro ⟨x, rfl, rfl⟩
  rfl

/-- The bytes of an encoded command, followed by any others, are taken as that command. -/
theorem decodeCommand_of_encode {i : Instr} {bytes : List Byte} (hwf : i.WellFormed)
    (h : encode i = .command bytes) (rest : List Byte) : decodeCommand (bytes ++ rest) = .complete i rest := by
  cases i with
  | tick now | sendReset now | resetNumbering now =>
    obtain rfl := Code.command.inj h
    exact commandOf_eq_complete_iff.mpr ⟨now, takeTime_eq_some_iff.mpr rfl, rfl⟩
  | crc16 bs =>
    obtain rfl := Code.command.inj h
    exact commandOf_eq_complete_iff.mpr ⟨bs, takeCrcOperands_eq_some_iff.mpr ⟨hwf, rfl⟩, rfl⟩
  | prepare type pn payload =>
    obtain rfl := Code.command.inj h
    exact commandOf_eq_complete_iff.mpr ⟨(type, pn, payload), takePrepareOperands_eq_some_iff.mpr ⟨hwf, rfl⟩, rfl⟩
  | validate f =>
    obtain rfl := Code.command.inj h
    exact commandOf_eq_complete_iff.mpr ⟨f, takeFrame_eq_some_iff.mpr rfl, rfl⟩
  | _ => cases h

/-- What the decoder takes is a well-formed command, and its bytes are that command's encoding. -/
theorem encode_of_decodeCommand {bs rest : List Byte} {i : Instr} (h : decodeCommand bs = .complete i rest) :
    i.WellFormed ∧ ∃ bytes, encode i = .command bytes ∧ bs = bytes ++ rest := by
  cases bs with
  | nil => cases h
  | cons cmd ops =>
    simp only [decodeCommand] at h
    split_ifs at h with hcmd hcmd hcmd hcmd hcmd hcmd <;> obtain ⟨x, htake, rfl⟩ := commandOf_complete h <;> subst hcmd
    iterate 3 exact ⟨trivial, _, rfl, congrArg _ (takeTime_eq_some_iff.mp htake)⟩
    · obtain ⟨hlen, hops⟩ := takeCrcOperands_eq_some_iff.mp htake
      exact ⟨hlen, _, rfl, congrArg _ hops⟩
    · obtain ⟨hlen, hops⟩ := takePrepareOperands_eq_some_iff.mp htake
      exact ⟨hlen, _, rfl, congrArg _ hops⟩
    · exact ⟨trivial, _, rfl, congrArg _ (takeFrame_eq_some_iff.mp htake)⟩

/-- Every command byte but R88's six is reserved (R89). -/
theorem decodeCommand_reserved {cmd : Byte} (ops : List Byte) (h1 : cmd ≠ 0x01) (h2 : cmd ≠ 0x02) (h3 : cmd ≠ 0x03)
    (h10 : cmd ≠ 0x10) (h11 : cmd ≠ 0x11) (h12 : cmd ≠ 0x12) : decodeCommand (cmd :: ops) = .reserved cmd ops := by
  simp only [decodeCommand, h1, h2, h3, h10, h11, h12, if_false]

/-! ## Selectors (R91) -/

theorem decodeSelector_of_encode {i : Instr} {v : BitVec 3} (h : encode i = .selector v) : decodeSelector v = i := by
  cases i <;> cases h <;> rfl

/-! ## The statements about the encoding -/

/-- Settles O2: in each of the three formats the decoder inverts the encoder; for a command nothing is left behind it. -/
theorem decodeEncodeAgree : Obligations.DecodeEncodeAgree := by
  intro i hwf
  cases hcode : encode i with
  | frame f => exact decodeFrame_of_encode hcode
  | command bytes =>
    have hcmd : decodeCommand bytes = .complete i [] := by
      simpa using decodeCommand_of_encode hwf hcode []
    simp only [decode, hcmd]
  | selector v => exact congrArg Decoded.instr (decodeSelector_of_encode hcode)

/-- Settles O3: the frames decoded are the frames that encode an instruction, and those are the ones with both markers
and a packet type. -/
theorem decodedFrameIsEncoded : Obligations.DecodedFrameIsEncoded := by
  intro f
  refine ⟨?_, fun i => encode_of_decodeFrame⟩
  simp only [decodeFrame_eq_instr_iff]
  exact exists_encode_frame_iff f

/-- Settles O4: each command byte of R88 takes its own operands, and what it takes is the head of the stream. -/
theorem decodedCommandIsEncodedHead : Obligations.DecodedCommandIsEncodedHead :=
  fun _ _ _ => encode_of_decodeCommand

/-- Settles O1: closed facts, evaluated. -/
theorem writtenWordsDecode : Obligations.WrittenWordsDecode := by
  unfold Obligations.WrittenWordsDecode
  decide

end Sys2Proof

/-! # The encoding family: which instruction a step runs, which commands are refused, and the length rule -/

namespace Sys2Proof.Machine

/-! ## The step (R91, R88) -/

/-- R91: inside a TICK a step runs the instruction that the running machine's selector decodes to. -/
theorem step_of_selected {s : State} {m : MachineId} {n : Nat} (h : s.takeInputs.phase = .running m n) :
    step s = exec (decodeSelector (s.takeInputs.selector m)) s.takeInputs :=
  (step_of_running h).trans (exec_decodeSelector s.takeInputs m).symm

/-- Settles O5: the decoder takes the encoded command from the head of the stream and leaves the rest. -/
theorem stepRunsDecodedCommand : Obligations.StepRunsDecodedCommand := by
  intro s i bytes rest hwf hcode hidle hcmd
  exact step_of_complete hidle (hcmd ▸ decodeCommand_of_encode hwf hcode rest)

/-- Settles O6: the selector is the machine's bit before its state register, so each value names its row of R91. -/
theorem stepRunsSelectedTransition : Obligations.StepRunsSelectedTransition := by
  intro s n
  constructor
  · intro hrun
    rw [step_of_selected hrun, State.selector]
    refine ⟨?_, ?_, ?_, ?_⟩ <;> (intro hst; rw [hst]; rfl)
  · intro hrun
    rw [step_of_selected hrun, State.selector]
    refine ⟨?_, ?_, ?_, ?_⟩ <;> (intro hst; rw [hst]; rfl)

/-! ## Responses (R88, R89) -/

/-- An outcome that goes on and answers something else than the refusal 0xFF alone, after what `s` has answered. -/
def AnswersNoRefusal (s : State) (o : Host.Outcome State Fault Refusal) : Prop :=
  ∃ t, o = .next t ∧ t.resp ≠ s.resp ++ [0xFF]

/-- A command with none in progress answers what it appends. -/
theorem whenIdle_answersNoRefusal {s t : State} {bs : List Byte} (hidle : s.phase = .idle)
    (hresp : t.resp = s.resp ++ bs) (hbs : bs ≠ [0xFF]) : AnswersNoRefusal s (whenIdle s t) :=
  ⟨t, whenIdle_idle hidle t, by rwa [hresp, ne_eq, List.append_cancel_left_eq]⟩

theorem State.silenceCheck_resp (s : State) : s.silenceCheck.resp = s.resp := by
  rcases s.silenceCheck_cases with ⟨-, h⟩ | ⟨-, h⟩ <;> simp [h]

/-- TICK's own step answers nothing yet: its response comes when the incoming machine is done (R208, R209). -/
theorem State.beginTick_resp (s : State) (now : Time) : (s.beginTick now).resp = s.resp :=
  (s.sample now).silenceCheck_resp

/-- SEND_RESET answers one of its two status bytes (R211). -/
theorem State.sendReset_resp (s : State) (now : Time) :
    (s.sendReset now).resp = s.resp ++ [if s.eoHasRoom then statusDone else statusNotWritten] := by
  unfold State.sendReset
  split_ifs <;> rfl

theorem statusOfSendReset_ne_refused (written : Prop) [Decidable written] :
    [if written then statusDone else statusNotWritten] ≠ [(0xFF : Byte)] := by
  split_ifs <;> decide

theorem verdictResponse_ne_refused (v : Option NackReason) : verdictResponse v ≠ [0xFF] := by
  cases v <;> simp [verdictResponse]

theorem prepareResponse_refused {type pn : Byte} {payload : List Byte} (h : 3 < type.toNat ∨ 8 < payload.length) :
    prepareResponse type pn payload = [statusRefused] := if_pos h

theorem prepareResponse_accepted {type pn : Byte} {payload : List Byte} (htype : type.toNat ≤ 3)
    (hlen : payload.length ≤ 8) : prepareResponse type pn payload = (prepare type pn payload).toList :=
  if_neg (not_or.mpr ⟨htype.not_gt, hlen.not_gt⟩)

/-- A frame has 15 bytes, the refusal one. -/
theorem frame_ne_refused (f : Frame) : f.toList ≠ [0xFF] := by
  intro h
  have hlength : f.toList.length = 15 := f.length_toList
  rw [h] at hlength
  cases hlength

/-- Settles O8: the reserved bytes by the decoder, PREPARE by its two kinds of response, the other five by what each
appends. -/
theorem reservedCommandsRefused : Obligations.ReservedCommandsRefused := by
  refine ⟨?_, ?_, ?_⟩
  · intro s c tail hidle hcmd h1 h2 h3 h10 h11 h12
    have hreserved := decodeCommand_reserved tail h1 h2 h3 h10 h11 h12
    rw [← hcmd] at hreserved
    exact ⟨tail, step_of_reserved hidle hreserved⟩
  · intro s type pn payload hidle
    constructor
    · intro hbad
      calc exec (.prepare type pn payload) s
        _ = .next (s.respond (prepareResponse type pn payload)) := whenIdle_idle hidle _
        _ = .next (s.respond [statusRefused]) := by rw [prepareResponse_refused hbad]
    · intro htype hlen
      exact whenIdle_answersNoRefusal hidle rfl (prepareResponse_accepted htype hlen ▸ frame_ne_refused _)
  · intro s now bytes f hidle
    simp only [List.forall_mem_cons]
    refine ⟨?tick, ?sendReset, ?resetNumbering, ?crc16, ?validate, List.forall_mem_nil _⟩
    case tick =>
      exact whenIdle_answersNoRefusal hidle ((s.beginTick_resp now).trans (List.append_nil _).symm) (by decide)
    case sendReset =>
      exact whenIdle_answersNoRefusal hidle (s.sendReset_resp now) (statusOfSendReset_ne_refused _)
    case resetNumbering =>
      exact whenIdle_answersNoRefusal (bs := [statusDone]) hidle rfl (by decide)
    case crc16 =>
      exact whenIdle_answersNoRefusal hidle rfl (by simp [crcResponse])
    case validate =>
      exact whenIdle_answersNoRefusal hidle rfl (verdictResponse_ne_refused (validate f))

/-! ## The length rule (R82) -/

theorem lengthOk_iff (type len : Byte) : lengthOk type len = true ↔ Safety.LengthLegal type len := by
  unfold lengthOk Safety.LengthLegal
  split_ifs with hdata hempty hnack
  · simp [hdata]
  · rcases hempty with rfl | rfl <;> simp
  · simp [hnack]
  · refine iff_of_false not_false ?_
    rintro (⟨h, -⟩ | ⟨h, -⟩ | ⟨h, -⟩ | ⟨h, -⟩)
    exacts [hdata h, hempty (.inl h), hnack h, hempty (.inr h)]

/-- R116: behind the markers and the type, the length check is the next to fail. -/
theorem validate_eq_invalidLength_iff {f : Frame} (hstart : f[0] = Config.startByte) (hstop : f[14] = Config.stopByte)
    (htype : (frameType f).toNat ≤ 3) :
    validate f = some .invalidLength ↔ lengthOk (frameType f) (frameLength f) = false := by
  rw [validate, if_neg (not_or.mpr ⟨not_not.mpr hstart, not_not.mpr hstop⟩), if_neg htype.not_gt]
  split_ifs with hlength
  · simp [hlength]
  · simp [hlength]
  · simp [hlength]

/-- The lengths that R82 does not give to a packet type. -/
theorem not_lengthLegal_iff {type : Byte} (htype : type.toNat ≤ 3) (len : Byte) :
    ¬ Safety.LengthLegal type len ↔
      (type = 0 ∧ 8 < len.toNat) ∨ (type = 1 ∧ len ≠ 0) ∨ (type = 2 ∧ len ≠ 1) ∨ (type = 3 ∧ len ≠ 0) := by
  unfold Safety.LengthLegal
  rcases packetType_cases htype with rfl | rfl | rfl | rfl <;> simp

/-- Settles O60: the rule by its table, and the check's failure by the negation of the rule. -/
theorem lengthRulePerType : Obligations.LengthRulePerType := by
  refine ⟨lengthOk_iff, ?_⟩
  intro f hstart hstop htype
  rw [validate_eq_invalidLength_iff hstart hstop htype, ← Bool.not_eq_true, lengthOk_iff]
  exact not_lengthLegal_iff htype f[3]

end Sys2Proof.Machine

/-! # The CRC and codec family: what the CRC detects, and what `prepare` and `validate` answer -/

namespace Sys2Proof.Machine

/-! ## The CRC in plain arithmetic (R110, R111) -/

/-- One turn of R110's loop on the value of the CRC. -/
def crcShiftNat (n : Nat) : Nat := if 32768 ≤ n then (2 * n % 65536) ^^^ 0x1021 else 2 * n

/-- Bit 15 of a CRC is set when its value has reached 2^15. -/
theorem getLsbD_15_iff (c : Word) : c.getLsbD 15 = true ↔ 32768 ≤ c.toNat := by
  rw [← BitVec.msb_eq_getLsbD_last, BitVec.msb_eq_decide, decide_eq_true_iff]

theorem toNat_crcShift (c : Word) : (crcShift c).toNat = crcShiftNat c.toNat := by
  have hdouble : (c <<< 1).toNat = 2 * c.toNat % 65536 := by
    rw [BitVec.toNat_shiftLeft, Nat.shiftLeft_eq, Nat.mul_comm]
  unfold crcShift crcShiftNat
  simp only [getLsbD_15_iff]
  split_ifs with htop
  · rw [BitVec.toNat_xor, hdouble]
    rfl
  · omega

theorem toNat_byteAboveLow (b : Byte) : (b.setWidth 16 <<< 8).toNat = b.toNat * 256 := by
  have := b.isLt
  rw [BitVec.toNat_shiftLeft, BitVec.toNat_setWidth, Nat.shiftLeft_eq]
  omega

theorem toNat_crcStep (c : Word) (b : Byte) :
    (crcStep c b).toNat = crcShiftNat^[8] (c.toNat ^^^ (b.toNat * 256)) := by
  have hiterate : Function.Semiconj BitVec.toNat crcShift^[8] crcShiftNat^[8] :=
    Function.Semiconj.iterate_right toNat_crcShift 8
  rw [crcStep, hiterate.eq, BitVec.toNat_xor, toNat_byteAboveLow]

theorem crc16_concat (bs : List Byte) (b : Byte) : crc16 (bs ++ [b]) = crcStep (crc16 bs) b := crc16_append bs [b]

/-- Settles O11: the step by its loop's turn on the values, the message by the fold. -/
theorem crcIsComputedBitByBit : Obligations.CrcIsComputedBitByBit :=
  ⟨toNat_crcStep, crc16_nil, crc16_concat⟩

/-! ## The CRC as a remainder: a message followed by its own CRC -/

/-- While no bit is shifted out of the CRC, R110's loop is a plain shift. -/
theorem iterate_crcShift_of_lt (c : Word) (n : Nat) (h : c.toNat * 2 ^ n < 2 ^ 16) : crcShift^[n] c = c <<< n := by
  induction n with
  | zero => exact (BitVec.shiftLeft_zero c).symm
  | succ n ih =>
    rw [Nat.pow_succ, ← Nat.mul_assoc] at h
    have hbelow : c.toNat * 2 ^ n < 32768 := by omega
    have hvalue : (c <<< n).toNat = c.toNat * 2 ^ n := by
      rw [BitVec.toNat_shiftLeft, Nat.shiftLeft_eq, Nat.mod_eq_of_lt (by omega)]
    have htop : ¬ (c <<< n).getLsbD 15 = true := by rw [getLsbD_15_iff]; omega
    rw [Function.iterate_succ_apply', ih (by omega), crcShift, if_neg htop, BitVec.shiftLeft_add]

/-- Xoring its high byte away leaves a CRC's low byte. -/
theorem xor_hiByte (c : Word) : c ^^^ ((hiByte c).setWidth 16 <<< 8) = (loByte c).setWidth 16 := by
  ext i hi
  rw [hiByte, loByte]
  rcases Nat.lt_or_ge i 8 with hlow | hhigh
  · simp [hlow, BitVec.getLsbD_eq_getElem hi]
  · have hbyte : i - 8 < 8 := by omega
    simp [hbyte, Nat.not_lt.mpr hhigh, Nat.add_sub_cancel' hhigh, BitVec.getLsbD_eq_getElem hi]

theorem crcStep_hiByte (c : Word) : crcStep c (hiByte c) = (loByte c).setWidth 16 <<< 8 := by
  have hlow := (loByte c).isLt
  rw [crcStep, xor_hiByte, iterate_crcShift_of_lt]
  rw [BitVec.toNat_setWidth]
  omega

theorem crcStep_self (b : Byte) : crcStep (b.setWidth 16 <<< 8) b = 0 := by
  rw [crcStep, BitVec.xor_self]
  rfl

/-- Settles O12: the high byte leaves the low byte, moved up, as the CRC, and the low byte then leaves zero. -/
theorem messageWithItsCrcHasCrcZero : Obligations.MessageWithItsCrcHasCrcZero := by
  intro m
  calc crc16 (m ++ [hiByte (crc16 m), loByte (crc16 m)])
    _ = crcStep (crcStep (crc16 m) (hiByte (crc16 m))) (loByte (crc16 m)) := crc16_append ..
    _ = crcStep ((loByte (crc16 m)).setWidth 16 <<< 8) (loByte (crc16 m)) := by rw [crcStep_hiByte]
    _ = 0 := crcStep_self _

/-! ## The CRC tells apart messages that differ in one byte -/

/-- The bit shifted out of the CRC comes back as bit 0, where the polynomial has a one and the shift a zero. -/
theorem crcShift_getLsbD_zero (c : Word) : (crcShift c).getLsbD 0 = c.getLsbD 15 := by
  unfold crcShift
  split_ifs with htop
  · simp [htop]
  · simpa using htop

theorem eq_of_shiftLeft_one_eq {x y : Word} (h : x <<< 1 = y <<< 1) (htop : x.getLsbD 15 = y.getLsbD 15) : x = y := by
  have hvalue := congrArg BitVec.toNat h
  have hbit : 32768 ≤ x.toNat ↔ 32768 ≤ y.toNat := by rw [← getLsbD_15_iff, ← getLsbD_15_iff, htop]
  have hx := x.isLt
  have hy := y.isLt
  simp only [BitVec.toNat_shiftLeft, Nat.shiftLeft_eq] at hvalue
  exact BitVec.eq_of_toNat_eq (by omega)

theorem crcShift_injective : Function.Injective crcShift := by
  intro x y h
  have htop : x.getLsbD 15 = y.getLsbD 15 := by
    rw [← crcShift_getLsbD_zero, ← crcShift_getLsbD_zero, h]
  refine eq_of_shiftLeft_one_eq ?_ htop
  unfold crcShift at h
  rw [htop] at h
  split_ifs at h
  · exact (BitVec.xor_left_inj _).mp h
  · exact h

theorem byteAboveLow_injective : Function.Injective fun b : Byte => b.setWidth 16 <<< 8 := by
  intro a b h
  have hvalue := congrArg BitVec.toNat h
  simp only [toNat_byteAboveLow] at hvalue
  exact BitVec.eq_of_toNat_eq (by omega)

theorem crcStep_left_injective (b : Byte) : Function.Injective (crcStep · b) :=
  fun _ _ h => (BitVec.xor_left_inj _).mp (crcShift_injective.iterate 8 h)

theorem crcStep_right_injective (c : Word) : Function.Injective (crcStep c) :=
  fun _ _ h => byteAboveLow_injective ((BitVec.xor_right_inj _).mp (crcShift_injective.iterate 8 h))

/-- Different CRCs stay different whatever bytes follow. -/
theorem foldl_crcStep_injective (bs : List Byte) : Function.Injective (bs.foldl crcStep ·) := by
  induction bs with
  | nil => exact Function.injective_id
  | cons b bs ih => exact ih.comp (crcStep_left_injective b)

/-- A changed byte changes the CRC. -/
theorem crc16_set_ne {bs : List Byte} {i : Nat} (hi : i < bs.length) {v : Byte} (hv : v ≠ bs[i]) :
    crc16 (bs.set i v) ≠ crc16 bs := by
  have hsplit : crc16 bs = (bs.drop (i + 1)).foldl crcStep (crcStep (crc16 (bs.take i)) bs[i]) := by
    rw [← List.foldl_cons, List.cons_getElem_drop_succ, ← crc16_append, List.take_append_drop]
  have hset : crc16 (bs.set i v) = (bs.drop (i + 1)).foldl crcStep (crcStep (crc16 (bs.take i)) v) := by
    rw [List.set_eq_take_append_cons_drop, if_pos hi, crc16_append, List.foldl_cons]
  rw [hsplit, hset]
  exact fun h => hv (crcStep_right_injective _ (foldl_crcStep_injective _ h))

/-! ## A frame with one byte changed -/

section
variable {f : Frame} {i : Nat} {v : Byte}

/-- The CRC's scope begins at offset 1 and is 11 bytes long: a byte behind it is not in it (R84). -/
theorem crcScope_set (hi : i < Config.frameLen) (h1 : 1 ≤ i) :
    crcScope (f.set i v hi) = (crcScope f).set (i - 1) v := by
  rw [crcScope, crcScope, Vector.toList_set, List.drop_set, if_neg h1.not_gt, List.take_set]

theorem length_crcScope (f : Frame) : (crcScope f).length = 11 := by
  simp [crcScope, Config.crcScopeLen]

theorem getElem_crcScope (hi : i < Config.frameLen) (h1 : 1 ≤ i) (h : i - 1 < (crcScope f).length) :
    (crcScope f)[i - 1] = f[i] := by
  simp [crcScope, Nat.sub_add_cancel h1]

theorem frameCrc_set_ne (hi : i < Config.frameLen) (h1 : 1 ≤ i) (h11 : i ≤ 11) (hv : v ≠ f[i]) :
    frameCrc (f.set i v hi) ≠ frameCrc f := by
  have hscope : i - 1 < (crcScope f).length := by rw [length_crcScope]; omega
  rw [frameCrc, frameCrc, crcScope_set hi h1]
  exact crc16_set_ne hscope (getElem_crcScope hi h1 hscope ▸ hv)

theorem frameCrc_set_of_behind (hi : i < Config.frameLen) (h12 : 12 ≤ i) :
    frameCrc (f.set i v hi) = frameCrc f := by
  have hbehind : (crcScope f).length ≤ i - 1 := by rw [length_crcScope]; omega
  rw [frameCrc, frameCrc, crcScope_set hi (by omega), List.set_eq_of_length_le hbehind]

theorem wordOfBytes_inj {h l h' l' : Byte} (heq : wordOfBytes h l = wordOfBytes h' l') : h = h' ∧ l = l' :=
  ⟨by simpa using congrArg hiByte heq, by simpa using congrArg loByte heq⟩

theorem frameCrcField_set_of_front (hi : i < Config.frameLen) (h11 : i ≤ 11) :
    frameCrcField (f.set i v hi) = frameCrcField f := by
  rw [frameCrcField, frameCrcField, Vector.getElem_set_ne _ _ (by omega), Vector.getElem_set_ne _ _ (by omega)]

/-- Whatever byte of an accepted frame changes, the frame is no longer accepted: a marker is wrong, the CRC of the scope
is another one, or the CRC field is. -/
theorem validate_set_ne_none (hi : i < Config.frameLen) (hv : v ≠ f[i]) (hvalid : validate f = none) :
    validate (f.set i v hi) ≠ none := by
  intro hset
  obtain ⟨hstart, hstop, -, -, hcrc⟩ := validate_none hvalid
  obtain ⟨hstart', hstop', -, -, hcrc'⟩ := validate_none hset
  have hoffset : i = 0 ∨ (1 ≤ i ∧ i ≤ 11) ∨ i = 12 ∨ i = 13 ∨ i = 14 := by
    simp only [Config.frameLen] at hi
    omega
  rcases hoffset with rfl | ⟨h1, h11⟩ | rfl | rfl | rfl
  · rw [Vector.getElem_set_self] at hstart'
    exact hv (hstart'.trans hstart.symm)
  · rw [frameCrcField_set_of_front hi h11, ← hcrc] at hcrc'
    exact frameCrc_set_ne hi h1 h11 hv hcrc'
  · rw [frameCrc_set_of_behind hi (by omega), hcrc] at hcrc'
    obtain ⟨hhi, -⟩ := wordOfBytes_inj hcrc'
    rw [Vector.getElem_set_self] at hhi
    exact hv hhi.symm
  · rw [frameCrc_set_of_behind hi (by omega), hcrc] at hcrc'
    obtain ⟨-, hlo⟩ := wordOfBytes_inj hcrc'
    rw [Vector.getElem_set_self] at hlo
    exact hv hlo.symm
  · rw [Vector.getElem_set_self] at hstop'
    exact hv (hstop'.trans hstop.symm)

end

/-! ## Which frames give which result of `validate` (R116) -/

/-- R116: what makes each result the one that `validate` reports, its own check failing behind checks that hold. -/
def VerdictFits (f : Frame) : Option NackReason → Prop
  | some .invalidFraming => f[0] ≠ Config.startByte ∨ f[14] ≠ Config.stopByte
  | some .invalidType => f[0] = Config.startByte ∧ f[14] = Config.stopByte ∧ 3 < (frameType f).toNat
  | some .invalidLength =>
    f[0] = Config.startByte ∧ f[14] = Config.stopByte ∧ (frameType f).toNat ≤ 3 ∧
      ¬ lengthOk (frameType f) (frameLength f) = true
  | some .invalidCrc =>
    f[0] = Config.startByte ∧ f[14] = Config.stopByte ∧ (frameType f).toNat ≤ 3 ∧
      lengthOk (frameType f) (frameLength f) = true ∧ frameCrc f ≠ frameCrcField f
  | none =>
    f[0] = Config.startByte ∧ f[14] = Config.stopByte ∧ (frameType f).toNat ≤ 3 ∧
      lengthOk (frameType f) (frameLength f) = true ∧ frameCrc f = frameCrcField f

theorem not_markersWrong {f : Frame} (hstart : f[0] = Config.startByte) (hstop : f[14] = Config.stopByte) :
    ¬ (f[0] ≠ Config.startByte ∨ f[14] ≠ Config.stopByte) :=
  not_or.mpr ⟨not_not.mpr hstart, not_not.mpr hstop⟩

theorem verdictFits_validate (f : Frame) : VerdictFits f (validate f) := by
  unfold validate
  split_ifs with hmarkers htype hlength hcrc
  · exact hmarkers
  all_goals
    obtain ⟨hstart, hstop⟩ := not_or.mp hmarkers
    refine ⟨not_not.mp hstart, not_not.mp hstop, ?_⟩
  · exact htype
  · exact ⟨not_lt.mp htype, (Bool.not_eq_true _).mpr hlength⟩
  · exact ⟨not_lt.mp htype, (Bool.not_eq_false _).mp hlength, hcrc⟩
  · exact ⟨not_lt.mp htype, (Bool.not_eq_false _).mp hlength, not_not.mp hcrc⟩

theorem validate_eq_of_verdictFits {f : Frame} {r : Option NackReason} (h : VerdictFits f r) : validate f = r := by
  match r with
  | some .invalidFraming => exact if_pos h
  | some .invalidType =>
    obtain ⟨hstart, hstop, htype⟩ := h
    rw [validate, if_neg (not_markersWrong hstart hstop), if_pos htype]
  | some .invalidLength =>
    obtain ⟨hstart, hstop, htype, hlength⟩ := h
    exact (validate_eq_invalidLength_iff hstart hstop htype).mpr ((Bool.not_eq_true _).mp hlength)
  | some .invalidCrc =>
    obtain ⟨hstart, hstop, htype, hlength, hcrc⟩ := h
    rw [validate, if_neg (not_markersWrong hstart hstop), if_neg htype.not_gt,
      if_neg ((Bool.not_eq_false _).mpr hlength), if_pos hcrc]
  | none => exact (validate_eq_none_iff f).mpr h

theorem validate_eq_iff (f : Frame) (r : Option NackReason) : validate f = r ↔ VerdictFits f r :=
  ⟨fun h => h ▸ verdictFits_validate f, validate_eq_of_verdictFits⟩

theorem crcScope_eq (f : Frame) :
    crcScope f = [f[1], f[2], f[3], f[4], f[5], f[6], f[7], f[8], f[9], f[10], f[11]] := by
  refine List.ext_getElem (length_crcScope f) fun i hi _ => ?_
  rw [length_crcScope] at hi
  simp only [crcScope, List.getElem_take, List.getElem_drop, Vector.getElem_toList]
  interval_cases i <;> rfl

theorem toNat_frameCrcField (f : Frame) : (frameCrcField f).toNat = f[12].toNat * 256 + f[13].toNat := by
  have hhi := f[12].isLt
  have hlo := f[13].isLt
  rw [frameCrcField, wordOfBytes, BitVec.toNat_ofNat]
  omega

theorem frameCrc_eq_field_iff (f : Frame) :
    frameCrc f = frameCrcField f ↔
      (crc16 [f[1], f[2], f[3], f[4], f[5], f[6], f[7], f[8], f[9], f[10], f[11]]).toNat =
        f[12].toNat * 256 + f[13].toNat := by
  rw [← BitVec.toNat_inj, toNat_frameCrcField, frameCrc, crcScope_eq]

/-- Settles O17: each result fits exactly its frames; the length rule and the CRC are then written out. -/
theorem validateReportsFirstFailure : Obligations.ValidateReportsFirstFailure := by
  intro f
  simp only [ne_eq, ← frameCrc_eq_field_iff, ← lengthOk_iff, validate_eq_iff]
  exact ⟨Iff.rfl, Iff.rfl, Iff.rfl, Iff.rfl, Iff.rfl⟩

/-! ## A frame with one bit flipped (R120) -/

section
variable {f : Frame} {i : Nat} {v : Byte}

theorem validate_set_marker (hi : i < Config.frameLen) (hv : v ≠ f[i]) (hvalid : validate f = none)
    (hmarker : i = 0 ∨ i = 14) : validate (f.set i v hi) = some .invalidFraming := by
  obtain ⟨hstart, hstop, -⟩ := validate_none hvalid
  rw [validate_eq_iff]
  rcases hmarker with rfl | rfl
  · left
    rwa [Vector.getElem_set_self, ← hstart]
  · right
    rwa [Vector.getElem_set_self, ← hstop]

theorem frameType_set_self (hi : 2 < Config.frameLen) : frameType (f.set 2 v hi) = v := Vector.getElem_set_self hi

theorem frameType_set_of_ne (hi : i < Config.frameLen) (h2 : i ≠ 2) : frameType (f.set i v hi) = frameType f :=
  Vector.getElem_set_ne hi _ h2

/-- A change between the markers leaves them as they are. -/
theorem markers_set (hi : i < Config.frameLen) (h0 : i ≠ 0) (h14 : i ≠ 14) (hvalid : validate f = none) :
    (f.set i v hi)[0] = Config.startByte ∧ (f.set i v hi)[14] = Config.stopByte := by
  obtain ⟨hstart, hstop, -⟩ := validate_none hvalid
  exact ⟨(Vector.getElem_set_ne hi _ h0).trans hstart, (Vector.getElem_set_ne hi _ h14).trans hstop⟩

theorem validate_set_type (hi : i < Config.frameLen) (hvalid : validate f = none) (h2 : i = 2) (htype : 3 < v.toNat) :
    validate (f.set i v hi) = some .invalidType := by
  subst h2
  obtain ⟨hstart, hstop⟩ := markers_set (v := v) hi (by decide) (by decide) hvalid
  rw [validate_eq_iff]
  exact ⟨hstart, hstop, frameType_set_self hi ▸ htype⟩

/-- Behind the markers and the type only the length and the CRC can fail. -/
theorem validate_eq_length_or_crc (hstart : f[0] = Config.startByte) (hstop : f[14] = Config.stopByte)
    (htype : (frameType f).toNat ≤ 3) (hinvalid : validate f ≠ none) :
    validate f = some .invalidLength ∨ validate f = some .invalidCrc := by
  cases hresult : validate f with
  | none => exact absurd hresult hinvalid
  | some r =>
    have hfits := (validate_eq_iff f _).mp hresult
    cases r with
    | invalidFraming => exact absurd hfits (not_markersWrong hstart hstop)
    | invalidType =>
      obtain ⟨-, -, hbad⟩ := hfits
      exact absurd hbad htype.not_gt
    | invalidLength => exact .inl rfl
    | invalidCrc => exact .inr rfl

theorem validate_set_other (hi : i < Config.frameLen) (hv : v ≠ f[i]) (hvalid : validate f = none) (h0 : i ≠ 0)
    (h14 : i ≠ 14) (htype : i = 2 → v.toNat ≤ 3) :
    validate (f.set i v hi) = some .invalidLength ∨ validate (f.set i v hi) = some .invalidCrc := by
  obtain ⟨hstart, hstop⟩ := markers_set (v := v) hi h0 h14 hvalid
  refine validate_eq_length_or_crc hstart hstop ?_ (validate_set_ne_none hi hv hvalid)
  by_cases h2 : i = 2
  · subst h2
    rw [frameType_set_self]
    exact htype rfl
  · obtain ⟨-, -, hle, -⟩ := validate_none hvalid
    rwa [frameType_set_of_ne hi h2]

end

theorem xor_twoPow_ne (b : Byte) {j : Nat} (hj : j < 8) : b ^^^ BitVec.twoPow 8 j ≠ b := by
  intro h
  have hbit := congrArg (BitVec.getLsbD · j) h
  simp [hj] at hbit

/-- The packet types are the bytes without a bit above bit 1: flipping bit `j` of one leaves a packet type for `j` 0 and
1 only. -/
theorem packetType_flip_le_three_iff {t : Byte} (ht : t.toNat ≤ 3) :
    ∀ j < 8, (t ^^^ BitVec.twoPow 8 j).toNat ≤ 3 ↔ j < 2 := by
  rcases packetType_cases ht with rfl | rfl | rfl | rfl
  all_goals decide

/-- Settles O15: a flipped bit changes its byte, so the frame is no longer accepted (`validate_set_ne_none`); the byte's
offset, and for the type the flipped bit, say which check can be the first to fail. -/
theorem singleBitFlipIsRejected : Obligations.SingleBitFlipIsRejected := by
  intro f k hvalid
  have hk : k.val / 8 < Config.frameLen := by
    have := k.isLt
    simp only [Config.frameLen]
    omega
  have hbit : k.val % 8 < 8 := Nat.mod_lt _ (by decide)
  have hchanged := xor_twoPow_ne f[k.val / 8] hbit
  have htypeBit : k.val / 8 = 2 → ((f[k.val / 8] ^^^ BitVec.twoPow 8 (k.val % 8)).toNat ≤ 3 ↔ k.val % 8 < 2) := by
    intro h2
    obtain ⟨-, -, htype, -⟩ := validate_none hvalid
    simp only [h2]
    exact packetType_flip_le_three_iff htype _ hbit
  refine ⟨fun hmarker => ?_, fun h2 hhigh => ?_, fun h0 h14 hother => ?_⟩
  · exact validate_set_marker hk hchanged hvalid (by omega)
  · exact validate_set_type hk hvalid h2 (not_le.mp ((htypeBit h2).not.mpr (by omega)))
  · exact validate_set_other hk hchanged hvalid h0 h14 fun h2 => (htypeBit h2).mpr (by omega)

/-! ## `prepare` against `validate` (R114, R119) -/

/-- Settles O13: the fields stand where R114 puts them; a length up to 8 fits its byte. -/
theorem prepareBuildsTheFrame : Obligations.PrepareBuildsTheFrame := by
  intro type pn p _ hlength f hf
  have hlengthByte : (BitVec.ofNat 8 p.length).toNat = p.length := by
    rw [BitVec.toNat_ofNat]
    omega
  rw [prepare_eq] at hf
  subst hf
  exact ⟨rfl, rfl, rfl, hlengthByte, rfl, rfl, rfl, rfl, rfl, rfl, rfl, rfl, rfl, rfl, rfl⟩

/-- Settles O14: `prepare` sets all that `validate` checks but the length, which it does not check. -/
theorem validatePrepareRoundTrip : Obligations.ValidatePrepareRoundTrip := by
  intro type pn p htype _
  refine ⟨fun hlength => validate_prepare hlength pn, fun hlength => ?_⟩
  rw [prepare]
  exact (validate_eq_invalidLength_iff (frameOfFields_start ..) (frameOfFields_stop ..) htype).mpr hlength

/-! ## The commands CRC16, PREPARE and VALIDATE (R112, R115, R117) -/

/-- Settles O20: with no command in progress CRC16 appends its response, the CRC's high and low byte. -/
theorem crc16CommandResult : Obligations.Crc16CommandResult := fun _ _ hidle => whenIdle_idle hidle _

theorem execPrepare_of_response {s : State} (hidle : s.phase = .idle) {type pn : Byte} {payload bs : List Byte}
    (hresp : prepareResponse type pn payload = bs) : exec (.prepare type pn payload) s = .next (s.respond bs) :=
  hresp ▸ whenIdle_idle hidle _

theorem execValidate_of_verdict {s : State} (hidle : s.phase = .idle) {f : Frame} {r : Option NackReason}
    (hverdict : validate f = r) : exec (.validate f) s = .next (s.respond (verdictResponse r)) :=
  hverdict ▸ whenIdle_idle hidle _

/-- Settles O21: the two kinds of response, by their conditions. -/
theorem prepareCommandResult : Obligations.PrepareCommandResult := by
  intro type pn payload s hidle
  refine ⟨fun htype hlength => ?accepted, fun hbad => ?refused⟩
  case accepted => exact execPrepare_of_response hidle (prepareResponse_accepted htype hlength)
  case refused => exact execPrepare_of_response hidle (prepareResponse_refused hbad)

/-- Settles O22: the verdict determines the response; its two bytes are read off `verdictResponse` and `reasonIndex`. -/
theorem validateCommandResult : Obligations.ValidateCommandResult :=
  fun _ _ hidle =>
    ⟨execValidate_of_verdict hidle, execValidate_of_verdict hidle, execValidate_of_verdict hidle,
      execValidate_of_verdict hidle, execValidate_of_verdict hidle⟩

end Sys2Proof.Machine

/-! # The outgoing family: what each outgoing transition does, how a packet is repeated, and when OPN changes -/

namespace Sys2Proof.Machine

/-! ## The outgoing transitions, an equation per case -/

section
variable {s : State}

theorem outReadData_of_byte {b : Byte} {rest : List Byte} (hpo : s.po.bytes = b :: rest) (hroom : s.ocnt.toNat < 8) :
    outReadData s = .progress { s with
      po := ⟨rest, s.po.capacity⟩, oreadMark := if s.ocnt = 0 then s.now else s.oreadMark
      obuf := s.obuf.setIfInBounds s.ocnt.toNat b, ocnt := s.ocnt + 1 } := by
  rw [← Port.dropOldest_of_cons hpo]
  simp only [outReadData, hpo]
  exact if_pos hroom

/-- With no byte to take, or no room for it, the timer is examined. -/
theorem outReadData_of_no_byte (h : s.po.bytes = [] ∨ 8 ≤ s.ocnt.toNat) : outReadData s = readTimer s := by
  rcases outReadData_cases s with ⟨b, rest, hpo, hroom, -⟩ | ⟨-, heq⟩
  · rcases h with hnil | hfull
    · exact absurd (hpo.symm.trans hnil) (List.cons_ne_nil b rest)
    · omega
  · exact heq

theorem readTimer_of_expired (hcnt : 0 < s.ocnt.toNat) (htime : 100 ≤ (s.now - s.oreadMark).toNat) :
    readTimer s = .progress { s with ost := 1 } :=
  if_pos ⟨hcnt, (s.expired_iff _ _).mpr htime⟩

theorem readTimer_of_waiting (h : s.ocnt = 0 ∨ (s.now - s.oreadMark).toNat < 100) : readTimer s = .noProgress s := by
  rcases readTimer_cases s with ⟨hcnt, htime, -⟩ | ⟨-, heq⟩
  · rcases h with hzero | hearly
    · simp [hzero] at hcnt
    · omega
  · exact heq

theorem outSendPackage_of_no_room (h : s.eo.availableForWrite < 15) :
    outSendPackage s = .noProgress (s.emit (.bufferFull .eo)) := by
  rcases outSendPackage_cases s with ⟨-, heq⟩ | ⟨hroom, -⟩ | ⟨hroom, -⟩
  · exact heq
  · omega
  · omega

theorem outSendPackage_of_room (hroom : 15 ≤ s.eo.availableForWrite) (hcnt : s.ocnt.toNat ≤ 8) :
    outSendPackage s = .progress { s.writeFrame s.dataFrame with oackMark := s.now, ost := 2 } := by
  rcases outSendPackage_cases s with ⟨hless, -⟩ | ⟨-, hover, -⟩ | ⟨-, -, heq⟩
  · omega
  · omega
  · exact heq

theorem outWait_of_ack {reason : Option Byte} {rest : List PendingMessage} (h : s.pq = ⟨.ack, s.opn, reason⟩ :: rest) :
    outWait s = .progress { s with pq := rest }.acknowledged := by
  simp [outWait, State.pqDropHead, h]

theorem outWait_of_nack {reason : Option Byte} {rest : List PendingMessage}
    (h : s.pq = ⟨.nack, s.opn, reason⟩ :: rest) : outWait s = .progress { s with pq := rest }.retryOrAbandon := by
  simp [outWait, State.pqDropHead, h]

theorem outWait_of_stale {e : PendingMessage} {rest : List PendingMessage} (h : s.pq = e :: rest) (hpn : e.pn ≠ s.opn) :
    outWait s = .progress { s with pq := rest } := by
  simp [outWait, State.pqDropHead, h, hpn]

theorem outWait_of_timeout (hpq : s.pq = []) (htime : 500 ≤ (s.now - s.oackMark).toNat) :
    outWait s = .progress s.retryOrAbandon := by
  simp only [outWait, hpq]
  exact if_pos ((s.expired_iff _ _).mpr htime)

theorem outWait_of_waiting (hpq : s.pq = []) (htime : (s.now - s.oackMark).toNat < 500) :
    outWait s = .noProgress s := by
  simp only [outWait, hpq]
  exact if_neg (mt (s.expired_iff _ _).mp (Nat.not_le.mpr htime))

theorem State.acknowledged_of_ne_255 (h : s.opn ≠ 255) :
    s.acknowledged = { s with opn := s.opn + 1, oretry := 0, ocnt := 0, ost := 0 } := by
  rw [State.acknowledged, State.advanceOPN, if_neg h]

/-- R200: OPN wraps to 1, and LIPN is cleared. -/
theorem State.acknowledged_of_255 (h : s.opn = 255) :
    s.acknowledged = { s with opn := 1, lipn := 0, oretry := 0, ocnt := 0, ost := 0 } := by
  rw [State.acknowledged, State.advanceOPN, if_pos h]

theorem State.retryOrAbandon_of_lt (h : s.oretry.toNat < 5) :
    s.retryOrAbandon = { s with oretry := s.oretry + 1, ost := 1 } :=
  if_pos h

theorem State.retryOrAbandon_of_ge (h : 5 ≤ s.oretry.toNat) :
    s.retryOrAbandon =
      { s with oretry := 0, ocnt := 0, ost := 0, diag := s.diag ++ [.maxRetriesExceeded s.opn] } :=
  if_neg (Nat.not_lt.mpr h)

end

/-- The scheduler's count only adds an event. -/
theorem State.diag_subset_afterProgress (s : State) (m : MachineId) : s.diag ⊆ (s.afterProgress m).diag := by
  have hdone : ∀ v : State, (v.machineDone m).diag = v.diag := by cases m <;> exact fun _ => rfl
  unfold State.afterProgress
  split
  · exact List.Subset.refl _
  · split
    · rcases s.countProgress_cases m _ with ⟨-, heq⟩ | ⟨-, heq⟩ <;> rw [heq]
      · exact List.Subset.refl _
      · rw [hdone]
        exact List.subset_append_left _ _
    · exact List.Subset.refl _

/-! ## The instructions of the outgoing machine (R140 to R144)

The instruction is the transition and the scheduler's count around it, `afterTransition`. -/

/-- Settles O28: the byte, or what the timer says. -/
theorem readDataTransition : Obligations.ReadDataTransition := by
  intro s
  refine ⟨fun b rest hpo hroom => ?byte, fun hno hcnt htime => ?expired, fun hno hwait => ?waiting⟩
  case byte => exact congrArg (afterTransition .outgoing) (outReadData_of_byte hpo hroom)
  case expired =>
    exact congrArg (afterTransition .outgoing) ((outReadData_of_no_byte hno).trans (readTimer_of_expired hcnt htime))
  case waiting =>
    exact congrArg (afterTransition .outgoing) ((outReadData_of_no_byte hno).trans (readTimer_of_waiting hwait))

/-- Settles O29: by the room in EO. -/
theorem sendPackageTransition : Obligations.SendPackageTransition := fun _ =>
  ⟨fun hless => congrArg (afterTransition .outgoing) (outSendPackage_of_no_room hless),
    fun hroom hcnt => congrArg (afterTransition .outgoing) (outSendPackage_of_room hroom hcnt)⟩

/-- A transition of WAIT_FOR_ACK_OR_NACK that returns progress is the instruction's next state, once counted. -/
theorem exec_outWait_of_progress {s u v : State} (h : outWait s = .progress u) (hu : u = v) :
    exec .outWaitForAckOrNack s = .next (v.afterProgress .outgoing) := by
  subst hu
  exact congrArg (afterTransition .outgoing) h

/-- Settles O30: the oldest response first, by its kind and its number; with none queued, the timer. -/
theorem waitTransition : Obligations.WaitTransition := by
  intro s
  refine ⟨fun _ rest hpq hopn => ?ack, fun _ rest hpq hopn => ?ackWraps, fun _ rest hpq hretry => ?nack,
    fun _ rest hpq hretry => ?nackLast, fun e rest hpq hpn => ?stale, fun hpq htime hretry => ?timeout,
    fun hpq htime hretry => ?timeoutLast, fun hpq htime => ?waiting⟩
  case ack => exact exec_outWait_of_progress (outWait_of_ack hpq) (State.acknowledged_of_ne_255 hopn)
  case ackWraps => exact exec_outWait_of_progress (outWait_of_ack hpq) (State.acknowledged_of_255 hopn)
  case nack => exact exec_outWait_of_progress (outWait_of_nack hpq) (State.retryOrAbandon_of_lt hretry)
  case nackLast => exact exec_outWait_of_progress (outWait_of_nack hpq) (State.retryOrAbandon_of_ge hretry)
  case stale => exact exec_outWait_of_progress (outWait_of_stale hpq hpn) rfl
  case timeout => exact exec_outWait_of_progress (outWait_of_timeout hpq htime) (State.retryOrAbandon_of_lt hretry)
  case timeoutLast => exact exec_outWait_of_progress (outWait_of_timeout hpq htime) (State.retryOrAbandon_of_ge hretry)
  case waiting => exact congrArg (afterTransition .outgoing) (outWait_of_waiting hpq htime)

/-- Settles O31: R143's one update, the event before the reset of this machine. -/
theorem corruptOutgoingTransition : Obligations.CorruptOutgoingTransition := fun _ => rfl

/-! ## OPN (R146, R272) -/

/-- Settles O34: of all that a step can do, only a matching ACK (`advance`, `wrap`) and a local reset write OPN. -/
theorem opnChangesOnlyOnAckOrReset : Obligations.OpnChangesOnlyOnAckOrReset := by
  intro s t h
  rcases step_cases h with ⟨-, rest, hr⟩ | ⟨n, v, hrun, hr, hc⟩ | ⟨n, v, hrun, hr, hc⟩
  · cases hr with
    | wait | respond | beginTick => exact .inl rfl
    | _ => exact .inr (.inr ⟨rfl, rfl, rfl, rfl, rfl, rfl, rfl, rfl, rfl⟩)
  · obtain ⟨phase, resp, diag, rfl⟩ := hc.frame
    cases hr with
    | advance reason rest hst hpq hopn =>
      exact .inr (.inl ⟨⟨n, hrun⟩, hst, ⟨reason, hpq⟩, (if_neg hopn).symm, rfl, rfl⟩)
    | wrap reason rest hst hpq hopn =>
      exact .inr (.inl ⟨⟨n, hrun⟩, hst, ⟨reason, hopn ▸ hpq⟩, (if_pos hopn).symm, rfl, rfl⟩)
    | _ => exact .inl rfl
  · obtain ⟨phase, resp, diag, rfl⟩ := hc.frame
    cases hr with
    | localReset => exact .inr (.inr ⟨rfl, rfl, rfl, rfl, rfl, rfl, rfl, rfl, rfl⟩)
    | _ => exact .inl rfl

end Sys2Proof.Machine

/-! # The outgoing family: the retry bound (R145)

An attempt leaves the packet to be sent again, with one more retry counted, or abandoned after the sixth; as long as it is
to be sent again, its frame is the same. -/

namespace Sys2Proof.Safety

open Sys2Proof.Machine

/-- `t` holds the packet of `s`: its number and the bytes collected. -/
structure SamePacket (s t : State) : Prop where
  opn : t.opn = s.opn
  obuf : t.obuf = s.obuf
  ocnt : t.ocnt = s.ocnt

theorem SamePacket.trans {s t u : State} (h : SamePacket s t) (h' : SamePacket t u) : SamePacket s u :=
  ⟨h'.opn.trans h.opn, h'.obuf.trans h.obuf, h'.ocnt.trans h.ocnt⟩

theorem SamePacket.dataFrame_eq {s t : State} (h : SamePacket s t) : t.dataFrame = s.dataFrame := by
  rw [State.dataFrame, State.dataFrame, State.outPayload, State.outPayload, h.opn, h.obuf, h.ocnt]

/-- What a packet about to be sent first in `s` has come to after `n` attempts without an ACK: it is to be sent again, with
`n` retries counted, or after six it is given up. -/
inductive AfterAttempts (s : State) : Nat → State → Prop
  | toSend {n : Nat} {t : State} (hn : n < 6) (packet : SamePacket s t) (pq : t.pq = []) (ost : t.ost = 1)
      (oretry : t.oretry.toNat = n) : AfterAttempts s n t
  | abandoned {t : State} (opn : t.opn = s.opn) (pq : t.pq = []) (ost : t.ost = 0) (oretry : t.oretry = 0)
      (ocnt : t.ocnt = 0) (logged : .maxRetriesExceeded s.opn ∈ t.diag) : AfterAttempts s 6 t

theorem AfterAttempts.afterProgress {s t : State} {n : Nat} (h : AfterAttempts s n t) (m : MachineId) :
    AfterAttempts s n (t.afterProgress m) := by
  have hdiag := t.diag_subset_afterProgress m
  rw [t.afterProgress_frame m]
  cases h with
  | toSend hn packet pq ost oretry => exact .toSend hn ⟨packet.opn, packet.obuf, packet.ocnt⟩ pq ost oretry
  | abandoned opn pq ost oretry ocnt logged => exact .abandoned opn pq ost oretry ocnt (hdiag logged)

/-- R144: of the attempts, numbered from 0, number 5 is the last; the comparison comes before the increment. -/
theorem SamePacket.afterAttempts_retryOrAbandon {s v : State} {n : Nat} (packet : SamePacket s v) (hpq : v.pq = [])
    (hretry : v.oretry.toNat = n) (hn : n < 6) : AfterAttempts s (n + 1) v.retryOrAbandon := by
  rcases v.retryOrAbandon_cases with ⟨hlt, heq⟩ | ⟨hge, heq⟩ <;> rw [heq]
  · have hnext : (v.oretry + 1).toNat = n + 1 := by bv_omega
    exact .toSend (by omega) ⟨packet.opn, packet.obuf, packet.ocnt⟩ hpq rfl hnext
  · obtain rfl : n = 5 := by omega
    exact .abandoned packet.opn hpq rfl rfl rfl (by simp [packet.opn])

/-! ## One attempt -/

/-- SEND_PACKAGE with room in EO: the frame is written, the timer started, the packet kept. -/
theorem exec_outSendPackage_of_room {s : State} (hroom : 15 ≤ s.eo.availableForWrite) (hcnt : s.ocnt.toNat ≤ 8) :
    ∃ u, exec .outSendPackage s = .next u ∧ SamePacket s u ∧ u.oretry = s.oretry ∧ u.pq = s.pq ∧
      u.oackMark = s.now ∧ u.eo = s.eo.write s.dataFrame.toList := by
  refine ⟨_, (sendPackageTransition s).2 hroom hcnt, ?_⟩
  rw [State.afterProgress_frame]
  exact ⟨⟨rfl, rfl, rfl⟩, rfl, rfl, rfl, rfl⟩

/-- R142 on the look of an attempt: a NACK has answered, or the timeout has passed; either way the packet is tried again or
given up. -/
theorem outWait_of_unanswered {a : Attempt} {u : State} (ha : a.Unanswered) (hpq : u.pq = a.response u.opn)
    (hmark : u.oackMark = a.sendAt) (hnow : u.now = a.lookAt) :
    outWait u = .progress { u with pq := [] }.retryOrAbandon := by
  obtain ⟨-, htimeout⟩ := ha
  cases hnack : a.nack with
  | some r => exact outWait_of_nack (by rw [hpq, Attempt.response, hnack])
  | none =>
    have hempty : u.pq = [] := by rw [hpq, Attempt.response, hnack]
    have htime : 500 ≤ (u.now - u.oackMark).toNat := hnow ▸ hmark ▸ htimeout hnack
    rw [outWait_of_timeout hempty htime, ← hempty]

theorem Attempt.run_of_exec {a : Attempt} {s u v : State}
    (hsend : exec .outSendPackage { s with eo := a.eo, now := a.sendAt } = .next u)
    (hlook : exec .outWaitForAckOrNack { u with now := a.lookAt, pq := u.pq ++ a.response u.opn } = .next v) :
    a.run s = some (u.eo.bytes.drop a.eo.bytes.length, v) := by
  simp only [Attempt.run, hsend, hlook]

/-- An attempt writes the packet's DATA frame, then tries again or gives up. -/
theorem Attempt.run_eq {a : Attempt} {s : State} (ha : a.Unanswered) (hcnt : s.ocnt.toNat ≤ 8) (hpq : s.pq = []) :
    ∃ v, a.run s = some (s.dataFrame.toList, v.retryOrAbandon.afterProgress .outgoing) ∧
      SamePacket s v ∧ v.pq = [] ∧ v.oretry = s.oretry := by
  obtain ⟨u, hsend, ⟨hopn, hobuf, hocnt⟩, hretry, hkept, hmark, heo⟩ :=
    exec_outSendPackage_of_room (s := { s with eo := a.eo, now := a.sendAt }) ha.1 hcnt
  have hqueue : u.pq ++ a.response u.opn = a.response u.opn := by rw [hkept, hpq, List.nil_append]
  have hlook : exec .outWaitForAckOrNack { u with now := a.lookAt, pq := u.pq ++ a.response u.opn } =
      .next (State.afterProgress { u with now := a.lookAt, pq := [] }.retryOrAbandon .outgoing) :=
    exec_outWait_of_progress (outWait_of_unanswered ha hqueue hmark rfl) rfl
  refine ⟨{ u with now := a.lookAt, pq := [] }, ?_, ⟨hopn, hobuf, hocnt⟩, rfl, hretry⟩
  have hgain : u.eo.bytes.drop a.eo.bytes.length = s.dataFrame.toList := by
    rw [heo]
    exact List.drop_left
  rw [Attempt.run_of_exec hsend hlook, hgain]

theorem Attempt.run_afterAttempts {a : Attempt} {s t : State} {n : Nat} (ha : a.Unanswered) (hcnt : s.ocnt.toNat ≤ 8)
    (hn : n < 6) (h : AfterAttempts s n t) :
    ∃ t', a.run t = some (s.dataFrame.toList, t') ∧ AfterAttempts s (n + 1) t' := by
  cases h with
  | abandoned => omega
  | toSend _ packet pq _ oretry =>
    obtain ⟨v, hrun, kept, hpq, hretry⟩ := Attempt.run_eq ha (packet.ocnt ▸ hcnt) pq
    exact ⟨_, packet.dataFrame_eq ▸ hrun,
      ((packet.trans kept).afterAttempts_retryOrAbandon hpq (hretry ▸ oretry) hn).afterProgress .outgoing⟩

/-! ## All attempts -/

theorem runAttempts_afterAttempts {s : State} (hcnt : s.ocnt.toNat ≤ 8) (attempts : List Attempt) :
    ∀ {n : Nat} {t : State}, (∀ a ∈ attempts, a.Unanswered) → n + attempts.length ≤ 6 → AfterAttempts s n t →
      ∃ t', runAttempts attempts t = some (List.replicate attempts.length s.dataFrame.toList, t') ∧
        AfterAttempts s (n + attempts.length) t' := by
  induction attempts with
  | nil => exact fun _ _ h => ⟨_, rfl, h⟩
  | cons a as ih =>
    intro n t hall hlen h
    obtain ⟨ha, has⟩ := List.forall_mem_cons.mp hall
    rw [List.length_cons] at hlen ⊢
    obtain ⟨t₁, hrun, h₁⟩ := Attempt.run_afterAttempts ha hcnt (by omega) h
    obtain ⟨t₂, hruns, h₂⟩ := ih has (by omega) h₁
    rw [Nat.add_right_comm] at h₂
    refine ⟨t₂, ?_, h₂⟩
    simp only [runAttempts, hrun, hruns, List.replicate_succ]

/-- Settles O33: by induction on the attempts, from no attempt made. -/
theorem retryBoundIsSixIdenticalFrames : Obligations.RetryBoundIsSixIdenticalFrames := by
  intro s attempts host hretry hcnt hpq hall hlen
  have hstart : AfterAttempts s 0 s := .toSend (by decide) ⟨rfl, rfl, rfl⟩ hpq host (by simp [hretry])
  obtain ⟨t, hruns, h⟩ := runAttempts_afterAttempts hcnt attempts hall (by omega) hstart
  rw [Nat.zero_add] at h
  refine ⟨t, hruns, ?_⟩
  generalize attempts.length = n at h ⊢
  cases h with
  | toSend hn packet pq ost oretry =>
    exact ⟨packet.opn, pq, fun _ => ⟨ost, oretry, packet.ocnt⟩, fun hsix => absurd hsix hn.ne⟩
  | abandoned opn pq ost oretry ocnt logged =>
    exact ⟨opn, pq, fun hless => absurd hless (lt_irrefl 6), fun _ => ⟨ost, oretry, ocnt, logged⟩⟩

end Sys2Proof.Safety

/-! # The incoming family: receiving a frame (R170, R171, R174), and what the received frame does (R172 to R178) -/

namespace Sys2Proof.Machine

/-! ## The transitions that read EI, an equation per case -/

section
variable {s : State}

theorem inWaitStart_of_no_byte (hei : s.ei.bytes = []) : inWaitStart s = .noProgress s := by
  simp only [inWaitStart, hei]

theorem inWaitStart_of_junk {b : Byte} {rest : List Byte} (hei : s.ei.bytes = b :: rest) (hb : b ≠ Config.startByte) :
    inWaitStart s = .progress { s with ei := ⟨rest, s.ei.capacity⟩ } := by
  rw [← Port.dropOldest_of_cons hei]
  simp only [inWaitStart, hei]
  exact if_pos hb

theorem inWaitStart_of_startByte {rest : List Byte} (hei : s.ei.bytes = Config.startByte :: rest) :
    inWaitStart s = .progress { s with irxMark := s.now, icnt := 0, ist := 1 } := by
  simp only [inWaitStart, hei]
  exact if_neg (not_not.mpr rfl)

/-- R171: a byte before the fifteenth is stored at offset ICNT. -/
theorem inRead_of_byte {b : Byte} {rest : List Byte} (hei : s.ei.bytes = b :: rest) (hicnt : s.icnt.toNat < 14) :
    inRead s = .progress { s with
      ei := ⟨rest, s.ei.capacity⟩, ibuf := s.ibuf.setIfInBounds s.icnt.toNat b, icnt := s.icnt + 1 } := by
  have hnext : s.nextIcnt = s.icnt + 1 := if_pos (Nat.lt_succ_of_lt hicnt)
  have hfree : s.nextFreeCount = s.freeCount := if_pos (Nat.lt_succ_of_lt hicnt)
  have hless : (s.icnt + 1).toNat ≠ 15 := by bv_omega
  rw [← Port.dropOldest_of_cons hei]
  simp only [inRead, hei, hnext, hfree, if_neg hless]

/-- R171: the fifteenth byte completes the frame. -/
theorem inRead_of_last_byte {b : Byte} {rest : List Byte} (hei : s.ei.bytes = b :: rest) (hicnt : s.icnt = 14) :
    inRead s = .progress { s with
      ei := ⟨rest, s.ei.capacity⟩, ibuf := s.ibuf.setIfInBounds 14 b, icnt := 15, ist := 2 } := by
  have hoffset : s.icnt.toNat = 14 := congrArg BitVec.toNat hicnt
  have hnext : s.nextIcnt = 15 := (if_pos (hoffset ▸ (by decide))).trans (hicnt ▸ rfl)
  have hfree : s.nextFreeCount = s.freeCount := if_pos (hoffset ▸ (by decide))
  rw [← Port.dropOldest_of_cons hei]
  simp only [inRead, hei, hnext, hfree, hoffset]
  rfl

theorem inRead_of_timeout (hei : s.ei.bytes = []) (htime : 500 ≤ (s.now - s.irxMark).toNat) :
    inRead s = .progress { s with icnt := 0, ist := 0 } := by
  simp only [inRead, hei]
  exact if_pos ((s.expired_iff _ _).mpr htime)

theorem inRead_of_waiting (hei : s.ei.bytes = []) (htime : (s.now - s.irxMark).toNat < 500) :
    inRead s = .noProgress s := by
  simp only [inRead, hei]
  exact if_neg (mt (s.expired_iff _ _).mp (Nat.not_le.mpr htime))

end

/-- Settles O36: by the byte at EI's head. -/
theorem waitForStartByteTransition : Obligations.WaitForStartByteTransition := fun _ =>
  ⟨fun hei => congrArg (afterTransition .incoming) (inWaitStart_of_no_byte hei),
    fun _ _ hei hb => congrArg (afterTransition .incoming) (inWaitStart_of_junk hei hb),
    fun _ hei => congrArg (afterTransition .incoming) (inWaitStart_of_startByte hei)⟩

/-- Settles O37: a byte by whether it is the fifteenth, else the timer. -/
theorem readIncomingTransition : Obligations.ReadIncomingTransition := by
  intro s hist
  refine ⟨fun b rest hei hicnt => ?early, fun b rest hei hicnt => ?last, fun hei htime => ?timeout,
    fun hei htime => ?waiting⟩
  case early => exact congrArg (afterTransition .incoming) (inRead_of_byte hei hicnt)
  case last => exact congrArg (afterTransition .incoming) (inRead_of_last_byte hei hicnt)
  case timeout => exact congrArg (afterTransition .incoming) (inRead_of_timeout hei htime)
  case waiting => exact congrArg (afterTransition .incoming) (inRead_of_waiting hei htime)

/-- Settles O38: R174's one update, the event before the reset of this machine. -/
theorem corruptIncomingTransition : Obligations.CorruptIncomingTransition := fun _ => rfl

/-! ## Part 1 of R172: the action a frame needs, by its type -/

section
variable {s : State} {f : Frame}

theorem receivedAction_of_valid (hvalid : validate f = none) (a : FrameAction) : receivedAction f a = a := by
  simp only [receivedAction, hvalid]

theorem receivedAction_of_wellFormed {type pn len : Byte} {p : Payload} {crc : Word} (htype : type.toNat ≤ 3)
    (hwf : FrameWellFormed type pn len p crc) (a : FrameAction) :
    receivedAction (frameOfFields type pn len p crc) a = a :=
  receivedAction_of_valid ((wellFormedFramesValidate type pn len p crc htype).mpr hwf) a

theorem frameAction_of_invalid {r : NackReason} (hinvalid : validate f = some r) :
    frameAction s f = invalidAction f r := by
  simp only [frameAction, hinvalid]

/-- A frame declared DATA is answered, valid or not (R175, R177). -/
theorem receivedAction_dataAction_reply (htype : frameType f = Config.typeData) :
    (receivedAction f (dataAction s f)).reply.isSome = true := by
  cases hv : validate f with
  | none => simp [receivedAction, hv, dataAction]
  | some r => simp [receivedAction, hv, invalidAction, htype]

/-! The dispatch on the type comes to the meaning of that packet type, for a valid frame and for one that fails. -/

theorem frameAction_of_data (htype : frameType f = Config.typeData) :
    frameAction s f = receivedAction f (dataAction s f) := by
  cases hv : validate f <;> simp [frameAction, receivedAction, hv, htype]

theorem frameAction_of_reset (htype : frameType f = Config.typeReset) :
    frameAction s f = receivedAction f resetAction := by
  cases hv : validate f <;> simp [frameAction, receivedAction, hv, htype]

theorem frameAction_of_ack (htype : frameType f = Config.typeAck) :
    frameAction s f = receivedAction f (ackAction s f) := by
  cases hv : validate f <;> simp [frameAction, receivedAction, hv, htype]

theorem frameAction_of_nack (htype : frameType f = Config.typeNack) :
    frameAction s f = receivedAction f (nackAction s f) := by
  cases hv : validate f <;> simp [frameAction, receivedAction, hv, htype]

/-- Only a RESET asks for the local reset, and it queues no response. -/
theorem frameAction_enqueue_of_doReset (h : (frameAction s f).doReset = true) : (frameAction s f).enqueue = none := by
  rcases frameAction_cases s f with ⟨-, -, heq⟩ | ⟨-, -, heq⟩ | ⟨-, -, heq⟩ | ⟨-, -, heq⟩ | ⟨r, -, heq⟩ <;>
    rw [heq] at h ⊢
  · cases h
  · rfl
  · cases h
  · cases h
  · cases h

end

/-! ## PROCESS_INCOMING_DATA and the four packet types (log 15) -/

section
variable (s : State) (pn len : Byte) (p : Payload) (crc : Word)

theorem exec_inProcess_eq :
    exec .inProcessIncomingData s =
      afterTransition .incoming (performFrame s (framePn s.ibuf) (frameAction s s.ibuf)) := rfl

theorem exec_data_eq :
    exec (.data pn len p crc) s = afterTransition .incoming (performFrame s pn
      (receivedAction (frameOfFields Config.typeData pn len p crc)
        (dataAction s (frameOfFields Config.typeData pn len p crc)))) := rfl

theorem exec_ack_eq :
    exec (.ack pn len p crc) s = afterTransition .incoming (performFrame s pn
      (receivedAction (frameOfFields Config.typeAck pn len p crc)
        (ackAction s (frameOfFields Config.typeAck pn len p crc)))) := rfl

theorem exec_nack_eq :
    exec (.nack pn len p crc) s = afterTransition .incoming (performFrame s pn
      (receivedAction (frameOfFields Config.typeNack pn len p crc)
        (nackAction s (frameOfFields Config.typeNack pn len p crc)))) := rfl

theorem exec_reset_eq :
    exec (.reset pn len p crc) s = afterTransition .incoming (performFrame s pn
      (receivedAction (frameOfFields Config.typeReset pn len p crc) resetAction)) := rfl

end

/-- Settles O44: the frame in IBUF is the one that encodes the instruction, and its type selects that instruction's
action. -/
theorem processingIsTheFrameInstruction : Obligations.ProcessingIsTheFrameInstruction := by
  intro s i hdecode
  have hcode : encode i = .frame s.ibuf := encode_of_decodeFrame hdecode
  rw [exec_inProcess_eq]
  cases i with
  | data pn len p crc =>
    rw [← Code.frame.inj hcode, frameAction_of_data (frameType_frameOfFields ..), framePn_frameOfFields, exec_data_eq]
  | ack pn len p crc =>
    rw [← Code.frame.inj hcode, frameAction_of_ack (frameType_frameOfFields ..), framePn_frameOfFields, exec_ack_eq]
  | nack pn len p crc =>
    rw [← Code.frame.inj hcode, frameAction_of_nack (frameType_frameOfFields ..), framePn_frameOfFields, exec_nack_eq]
  | reset pn len p crc =>
    rw [← Code.frame.inj hcode, frameAction_of_reset (frameType_frameOfFields ..), framePn_frameOfFields, exec_reset_eq]
  | _ => cases hcode

/-- Settles O7: with IST = 2 the selector is PROCESS_INCOMING_DATA's, which O44 says is the frame instruction. -/
theorem stepProcessesReceivedFrame : Obligations.StepProcessesReceivedFrame := by
  intro s n i hrun hist hdecode
  obtain ⟨-, -, hprocess, -⟩ := (stepRunsSelectedTransition s n).2 hrun
  exact (hprocess hist).trans (processingIsTheFrameInstruction s.takeInputs i hdecode)

/-! ## Part 2 of R172: the room, an equation per case -/

section
variable {s : State} {pn : Byte} {a : FrameAction}

theorem performFrame_of_no_eo (hreply : a.reply.isSome = true) (hless : s.eo.availableForWrite < 15) :
    performFrame s pn a = .noProgress (s.emit (.bufferFull .eo)) := by
  rcases performFrame_cases s pn a with ⟨-, -, heq⟩ | ⟨heo, -⟩ | ⟨heo, -⟩
  · exact heq
  · exact absurd (heo hreply) hless.not_ge
  · exact absurd (heo hreply) hless.not_ge

theorem performFrame_of_no_pi {bs : List Byte} (hroom : a.reply.isSome = true → 15 ≤ s.eo.availableForWrite)
    (hdeliver : a.deliver = some bs) (hless : s.pi.availableForWrite < bs.length) :
    performFrame s pn a = .noProgress (s.emit (.bufferFull .pi)) := by
  rcases performFrame_cases s pn a with ⟨hreply, hlow, -⟩ | ⟨-, -, heq⟩ | ⟨-, hpi, -⟩
  · exact absurd (hroom hreply) hlow.not_ge
  · exact heq
  · exact absurd (hpi bs hdeliver) hless.not_ge

theorem performFrame_of_room (hroom : a.reply.isSome = true → 15 ≤ s.eo.availableForWrite)
    (hpi : ∀ bs, a.deliver = some bs → bs.length ≤ s.pi.availableForWrite) :
    performFrame s pn a = .progress (commitFrame s pn a) := by
  rcases performFrame_cases s pn a with ⟨hreply, hlow, -⟩ | ⟨-, ⟨bs, hdeliver, hlow⟩, -⟩ | ⟨-, -, heq⟩
  · exact absurd (hroom hreply) hlow.not_ge
  · exact absurd (hpi bs hdeliver) hlow.not_ge
  · exact heq

end

/-! ## Part 3 of R172: the commit, one update for each of its operations -/

section
variable (s : State) (pn : Byte) (a : FrameAction)

theorem State.reportInvalid_eq :
    s.reportInvalid a = { s with diag := s.diag ++ (a.invalid.map DiagEvent.invalidFrame).toList } := by
  unfold State.reportInvalid
  split <;> simp [State.emit, *]

theorem State.deliverPayload_eq :
    s.deliverPayload pn a = { s with
      pi := ⟨s.pi.bytes ++ a.deliver.getD [], s.pi.capacity⟩
      lipn := if a.deliver.isSome = true then pn else s.lipn } := by
  unfold State.deliverPayload
  split <;> simp [Port.write, *]

theorem State.enqueueResponse_eq :
    s.enqueueResponse a = { s with
      pq := if s.pq.length < 4 then s.pq ++ a.enqueue.toList else s.pq
      diag := s.diag ++
        if s.pq.length < 4 then [] else (a.enqueue.map fun e => DiagEvent.queueOverflow e.kind e.pn).toList } := by
  unfold State.enqueueResponse
  split
  · rename_i e he
    rcases s.pqPush_cases e with ⟨hroom, heq⟩ | ⟨hfull, heq⟩
    · simp [heq, he, hroom]
    · simp [heq, he, hfull.not_gt]
  · rename_i he
    simp [he]

theorem State.sendReply_eq :
    s.sendReply a = { s with eo := ⟨s.eo.bytes ++ (a.reply.map Vector.toList).getD [], s.eo.capacity⟩ } := by
  unfold State.sendReply
  split <;> simp [State.writeFrame, Port.write, *]

end

/-- The whole next state of a commit without a reset: every operation of part 3 has its own fields. -/
theorem commitFrame_eq_of_noReset {a : FrameAction} (h : a.doReset = false) (s : State) (pn : Byte) :
    commitFrame s pn a = { s with
      eo := ⟨s.eo.bytes ++ (a.reply.map Vector.toList).getD [], s.eo.capacity⟩
      pi := ⟨s.pi.bytes ++ a.deliver.getD [], s.pi.capacity⟩
      lipn := if a.deliver.isSome = true then pn else s.lipn
      pq := if s.pq.length < 4 then s.pq ++ a.enqueue.toList else s.pq
      diag := s.diag ++ (a.invalid.map DiagEvent.invalidFrame).toList ++
        if s.pq.length < 4 then [] else (a.enqueue.map fun e => DiagEvent.queueOverflow e.kind e.pn).toList
      silMark := s.now, icnt := 0, ist := 0 } := by
  rw [commitFrame_noReset s pn a h, State.sendReply_eq, State.enqueueResponse_eq, State.deliverPayload_eq,
    State.reportInvalid_eq]
  rfl

/-- The same with a reset, which the delivery precedes and no response follows. -/
theorem commitFrame_eq_of_reset {a : FrameAction} (h : a.doReset = true) (hqueue : a.enqueue = none) (s : State)
    (pn : Byte) :
    commitFrame s pn a = { s with
      eo := ⟨s.eo.bytes ++ (a.reply.map Vector.toList).getD [], s.eo.capacity⟩
      pi := ⟨s.pi.bytes ++ a.deliver.getD [], s.pi.capacity⟩
      diag := s.diag ++ (a.invalid.map DiagEvent.invalidFrame).toList
      opn := 1, lipn := 0, ost := 0, ocnt := 0, oretry := 0, pq := [], silMark := s.now, icnt := 0, ist := 0 } := by
  have hnone (t : State) : t.enqueueResponse a = t := by rw [State.enqueueResponse, hqueue]
  have hreset (t : State) : t.resetIfAsked a = t.resetPacketNumbering := if_pos h
  rw [commitFrame, State.sendReply_eq, hnone, hreset, State.deliverPayload_eq, State.reportInvalid_eq]
  rfl

/-- Settles O45: the commit's whole next state by whether the action resets; without room the frame is held. -/
theorem processingIsAllOrNothing : Obligations.ProcessingIsAllOrNothing := by
  intro s a ha
  have hexec : exec .inProcessIncomingData s = afterTransition .incoming (performFrame s (framePn s.ibuf) a) := by
    rw [exec_inProcess_eq, ha]
  refine ⟨fun hroom hpi => ⟨commitFrame s (framePn s.ibuf) a, ?next, ?fields⟩, fun hreply hless => ?noEo,
    fun bs hroom hdeliver hless => ?noPi⟩
  case next => rw [hexec, performFrame_of_room hroom hpi, afterTransition]
  case fields =>
    cases hreset : a.doReset with
    | true =>
      have hqueue : a.enqueue = none := by
        subst ha
        exact frameAction_enqueue_of_doReset hreset
      rw [commitFrame_eq_of_reset hreset hqueue, hqueue]
      exact ⟨rfl, rfl, rfl, rfl, rfl, fun _ => ⟨rfl, rfl, rfl, rfl, rfl, rfl⟩, nofun, by simp, rfl⟩
    | false =>
      rw [commitFrame_eq_of_noReset hreset]
      exact ⟨rfl, rfl, rfl, rfl, rfl, nofun, fun _ => ⟨rfl, rfl, rfl, rfl, rfl, rfl⟩, rfl, rfl⟩
  case noEo => rw [hexec, performFrame_of_no_eo hreply hless]; rfl
  case noPi => rw [hexec, performFrame_of_no_pi hroom hdeliver hless]; rfl

/-! ## The receipt of each packet type (R173, R175 to R178)

With room the frame is committed, and the operations its action does not ask for change nothing. -/

section
variable {s : State} {pn : Byte} {a : FrameAction}

theorem afterTransition_performFrame_of_room (hroom : a.reply.isSome = true → 15 ≤ s.eo.availableForWrite)
    (hpi : ∀ bs, a.deliver = some bs → bs.length ≤ s.pi.availableForWrite) :
    afterTransition .incoming (performFrame s pn a) = .next ((commitFrame s pn a).afterProgress .incoming) := by
  rw [performFrame_of_room hroom hpi, afterTransition]

theorem afterTransition_performFrame_of_reply (hroom : 15 ≤ s.eo.availableForWrite) (hdeliver : a.deliver = none) :
    afterTransition .incoming (performFrame s pn a) = .next ((commitFrame s pn a).afterProgress .incoming) :=
  afterTransition_performFrame_of_room (fun _ => hroom) (by simp [hdeliver])

/-- A frame that needs neither a reply nor a delivery needs no room. -/
theorem afterTransition_performFrame_of_silent (hreply : a.reply = none) (hdeliver : a.deliver = none) :
    afterTransition .incoming (performFrame s pn a) = .next ((commitFrame s pn a).afterProgress .incoming) :=
  afterTransition_performFrame_of_room (by simp [hreply]) (by simp [hdeliver])

end

section
variable {s : State} {pn len : Byte} {p : Payload} {crc : Word}

theorem deliveredBytes_frameOfFields (type : Byte) :
    deliveredBytes (frameOfFields type pn len p crc) = p.toList.take len.toNat := by
  rw [deliveredBytes, framePayload_frameOfFields, frameLength_frameOfFields]

theorem deliveredBytes_length {f : Frame} (hlength : lengthOk Config.typeData (frameLength f) = true) :
    (deliveredBytes f).length = (frameLength f).toNat := by
  have hle : (frameLength f).toNat ≤ 8 := by simpa [lengthOk] using hlength
  rw [deliveredBytes, List.length_take, Vector.length_toList]
  exact min_eq_left hle

theorem exec_data_of_new (hwf : (Instr.data pn len p crc).WellFormed) (hnew : s.lipn.toNat < pn.toNat) :
    exec (.data pn len p crc) s = afterTransition .incoming (performFrame s pn
      ⟨some (ackFrame pn), some (p.toList.take len.toNat), false, none, none⟩) := by
  rw [exec_data_eq, receivedAction_of_wellFormed (by decide) hwf, dataAction_new hnew, framePn_frameOfFields,
    deliveredBytes_frameOfFields]

theorem exec_data_of_duplicate (hwf : (Instr.data pn len p crc).WellFormed) (hold : pn.toNat ≤ s.lipn.toNat) :
    exec (.data pn len p crc) s = afterTransition .incoming (performFrame s pn
      ⟨some (ackFrame pn), none, false, none, none⟩) := by
  rw [exec_data_eq, receivedAction_of_wellFormed (by decide) hwf, dataAction_old hold.not_gt, framePn_frameOfFields]

theorem exec_ack_of_matching (hwf : (Instr.ack pn len p crc).WellFormed) (hpn : pn = s.opn) :
    exec (.ack pn len p crc) s = afterTransition .incoming (performFrame s pn
      ⟨none, none, false, some ⟨.ack, pn, none⟩, none⟩) := by
  rw [exec_ack_eq, receivedAction_of_wellFormed (by decide) hwf, ackAction_matching (f := frameOfFields ..) hpn,
    framePn_frameOfFields]

theorem exec_ack_of_stale (hwf : (Instr.ack pn len p crc).WellFormed) (hpn : pn ≠ s.opn) :
    exec (.ack pn len p crc) s = afterTransition .incoming (performFrame s pn ⟨none, none, false, none, none⟩) := by
  rw [exec_ack_eq, receivedAction_of_wellFormed (by decide) hwf, ackAction_stale (f := frameOfFields ..) hpn]

theorem exec_nack_of_matching (hwf : (Instr.nack pn len p crc).WellFormed) (hpn : pn = s.opn) :
    exec (.nack pn len p crc) s = afterTransition .incoming (performFrame s pn
      ⟨none, none, false, some ⟨.nack, pn, some p[0]⟩, none⟩) := by
  rw [exec_nack_eq, receivedAction_of_wellFormed (by decide) hwf, nackAction_matching (f := frameOfFields ..) hpn,
    framePn_frameOfFields]
  rfl

theorem exec_nack_of_stale (hwf : (Instr.nack pn len p crc).WellFormed) (hpn : pn ≠ s.opn) :
    exec (.nack pn len p crc) s = afterTransition .incoming (performFrame s pn ⟨none, none, false, none, none⟩) := by
  rw [exec_nack_eq, receivedAction_of_wellFormed (by decide) hwf, nackAction_stale (f := frameOfFields ..) hpn]

theorem exec_reset_of_wellFormed (hwf : (Instr.reset pn len p crc).WellFormed) :
    exec (.reset pn len p crc) s = afterTransition .incoming (performFrame s pn resetAction) := by
  rw [exec_reset_eq, receivedAction_of_wellFormed (by decide) hwf]

end

/-- Settles O39: the action of a new frame and of a duplicate, each with room for it. -/
theorem validDataReceipt : Obligations.ValidDataReceipt := by
  intro s pn len p crc hwf hroom
  refine ⟨fun hnew hpi => ?new, fun hold => ?duplicate⟩
  case new =>
    have hfits : (p.toList.take len.toNat).length ≤ s.pi.availableForWrite := (List.length_take_le _ _).trans hpi
    exact (exec_data_of_new hwf hnew).trans
      (afterTransition_performFrame_of_room (fun _ => hroom) fun _ hbs => Option.some.inj hbs ▸ hfits)
  case duplicate => exact (exec_data_of_duplicate hwf hold).trans (afterTransition_performFrame_of_reply hroom rfl)

/-! What a matching ACK or NACK leaves, by the room in the queue (R202), and a stale one. -/

section
variable {s : State} (pn : Byte) (e : PendingMessage)

theorem performFrame_queued (hroom : s.pq.length < 4) :
    afterTransition .incoming (performFrame s pn ⟨none, none, false, some e, none⟩) =
      .next (State.afterProgress { s with
        pq := s.pq ++ [e], silMark := s.now, icnt := 0, ist := 0 } .incoming) := by
  have hpush : s.pqPush e = { s with pq := s.pq ++ [e] } := if_pos hroom
  calc
    _ = .next ((s.pqPush e).frameDone.afterProgress .incoming) := afterTransition_performFrame_of_silent rfl rfl
    _ = _ := by rw [hpush, State.frameDone]

theorem performFrame_lost (hfull : s.pq.length = 4) :
    afterTransition .incoming (performFrame s pn ⟨none, none, false, some e, none⟩) =
      .next (State.afterProgress { s with
        diag := s.diag ++ [.queueOverflow e.kind e.pn], silMark := s.now, icnt := 0, ist := 0 } .incoming) := by
  have hpush : s.pqPush e = { s with diag := s.diag ++ [.queueOverflow e.kind e.pn] } := if_neg hfull.not_lt
  calc
    _ = .next ((s.pqPush e).frameDone.afterProgress .incoming) := afterTransition_performFrame_of_silent rfl rfl
    _ = _ := by rw [hpush, State.frameDone]

theorem performFrame_stale (s : State) :
    afterTransition .incoming (performFrame s pn ⟨none, none, false, none, none⟩) =
      .next (State.afterProgress { s with silMark := s.now, icnt := 0, ist := 0 } .incoming) :=
  afterTransition_performFrame_of_silent rfl rfl

end

/-- Settles O40: a matching response is queued or lost, a stale one is dropped. -/
theorem validAckOrNackReceipt : Obligations.ValidAckOrNackReceipt := fun s pn _ _ _ =>
  ⟨fun hwf =>
    ⟨fun hpn hroom => (exec_ack_of_matching hwf hpn).trans (performFrame_queued pn _ hroom),
      fun hpn hfull => (exec_ack_of_matching hwf hpn).trans (performFrame_lost pn _ hfull),
      fun hpn => (exec_ack_of_stale hwf hpn).trans (performFrame_stale pn s)⟩,
    fun hwf =>
    ⟨fun hpn hroom => (exec_nack_of_matching hwf hpn).trans (performFrame_queued pn _ hroom),
      fun hpn hfull => (exec_nack_of_matching hwf hpn).trans (performFrame_lost pn _ hfull),
      fun hpn => (exec_nack_of_stale hwf hpn).trans (performFrame_stale pn s)⟩⟩

/-- CD-6: the bytes of ACK(0). -/
theorem ackFrame_zero_toList :
    (ackFrame 0).toList = [0xAA, 0x00, 0x01, 0, 0, 0, 0, 0, 0, 0, 0, 0, 0xBB, 0x4A, 0x55] := by
  decide +kernel

/-- Settles O41: R176's action, with room for its reply. -/
theorem validResetReceipt : Obligations.ValidResetReceipt := by
  intro s pn len p crc hwf hroom
  rw [← ackFrame_zero_toList]
  exact (exec_reset_of_wellFormed hwf).trans (afterTransition_performFrame_of_reply hroom rfl)

section
variable {s : State} {r : NackReason}

theorem exec_inProcess_of_invalid_data (hinvalid : validate s.ibuf = some r) (htype : s.ibuf[2] = 0) :
    exec .inProcessIncomingData s = afterTransition .incoming (performFrame s (framePn s.ibuf)
      ⟨some (nackFrame (framePn s.ibuf) r), none, false, none, some r⟩) := by
  rw [exec_inProcess_eq, frameAction_of_invalid hinvalid, invalidAction_data htype]

theorem exec_inProcess_of_invalid_other (hinvalid : validate s.ibuf = some r) (htype : s.ibuf[2] ≠ 0) :
    exec .inProcessIncomingData s = afterTransition .incoming (performFrame s (framePn s.ibuf)
      ⟨none, none, false, none, some r⟩) := by
  rw [exec_inProcess_eq, frameAction_of_invalid hinvalid, invalidAction_other htype]

/-- A frame that fails for its type is not declared DATA. -/
theorem ne_invalidType_of_data {f : Frame} (hinvalid : validate f = some r) (htype : f[2] = 0) : r ≠ .invalidType := by
  rintro rfl
  obtain ⟨-, -, hbad⟩ := (validate_eq_iff f _).mp hinvalid
  rw [show frameType f = 0 from htype] at hbad
  exact absurd hbad (by decide)

end

/-- Settles O42: R177's action by the declared type. -/
theorem invalidFrameReceipt : Obligations.InvalidFrameReceipt := by
  refine ⟨fun s r hinvalid htype hroom => ⟨ne_invalidType_of_data hinvalid htype, ?data⟩,
    fun s r hinvalid htype => ?other⟩
  case data =>
    exact (exec_inProcess_of_invalid_data hinvalid htype).trans (afterTransition_performFrame_of_reply hroom rfl)
  case other =>
    exact (exec_inProcess_of_invalid_other hinvalid htype).trans (afterTransition_performFrame_of_silent rfl rfl)

/-- Settles O43: a DATA frame is answered, valid or not, so it needs room in EO; a new one needs room in PI as well. -/
theorem noRoomHoldsTheFrame : Obligations.NoRoomHoldsTheFrame := by
  refine ⟨fun s pn len p crc => ⟨fun hless => ?data, fun hwf hless => ?reset, fun hwf hroom hnew hless => ?newData⟩,
    fun s r hinvalid htype hless => ?invalid⟩
  case data =>
    rw [exec_data_eq, performFrame_of_no_eo (receivedAction_dataAction_reply (frameType_frameOfFields ..)) hless]
    rfl
  case reset =>
    rw [exec_reset_of_wellFormed hwf, performFrame_of_no_eo rfl hless]
    rfl
  case newData =>
    have hlength : (p.toList.take len.toNat).length = len.toNat := by
      rw [← deliveredBytes_frameOfFields (pn := pn) (crc := crc) Config.typeData]
      exact deliveredBytes_length hwf.1
    rw [exec_data_of_new hwf hnew, performFrame_of_no_pi (fun _ => hroom) rfl (hlength.symm ▸ hless)]
    rfl
  case invalid =>
    rw [exec_inProcess_of_invalid_data hinvalid htype, performFrame_of_no_eo rfl hless]
    rfl

/-! ## What PI gains (R175, R178, R215) -/

/-- Settles O56: of all that a step can do, only a delivery writes to PI. -/
theorem piGainsOnlyNewPayloads : Obligations.PiGainsOnlyNewPayloads := by
  intro s t h
  rcases step_cases h with ⟨-, rest, hr⟩ | ⟨n, v, -, hr, hc⟩ | ⟨n, v, -, hr, hc⟩
  · cases hr <;> exact ⟨rfl, .inl rfl⟩
  · obtain ⟨phase, resp, diag, rfl⟩ := hc.frame
    cases hr <;> exact ⟨rfl, .inl rfl⟩
  · obtain ⟨phase, resp, diag, rfl⟩ := hc.frame
    cases hr with
    | deliver hst hvalid htype hnew hroom hpi =>
      obtain ⟨-, -, -, hlength, -⟩ := validate_none hvalid
      exact ⟨rfl, .inr ⟨hst, hvalid, htype, hnew, rfl, rfl, deliveredBytes_length (htype ▸ hlength), hpi, rfl⟩⟩
    | _ => exact ⟨rfl, .inl rfl⟩

end Sys2Proof.Machine

/-! # The sequencing family: the commands that reset, the scheduler's count, and a TICK run to its end -/

namespace Sys2Proof.Machine

open Sys2Proof.Safety

/-! ## The scheduler's count, an equation per case (R208, R209) -/

section
variable {s : State} {m m' : MachineId} {n : Nat}

theorem State.afterProgress_of_running (h : s.phase = .running m n) : s.afterProgress m = s.countProgress m n := by
  simp only [State.afterProgress, h, if_true]

theorem State.afterNoProgress_of_running (h : s.phase = .running m n) : s.afterNoProgress m = s.machineDone m := by
  simp only [State.afterNoProgress, h, if_true]

/-- Log 20: with no command in progress nothing is counted. -/
theorem State.counts_nothing_of_idle (h : s.phase = .idle) (m : MachineId) :
    s.afterProgress m = s ∧ s.afterNoProgress m = s := by
  simp only [State.afterProgress, State.afterNoProgress, h, and_self]

/-- Log 20: while the other machine runs nothing is counted. -/
theorem State.counts_nothing_of_other (h : s.phase = .running m' n) (hne : m' ≠ m) :
    s.afterProgress m = s ∧ s.afterNoProgress m = s := by
  simp only [State.afterProgress, State.afterNoProgress, h, if_neg hne, and_self]

theorem State.countProgress_of_lt (h : n + 1 < 17) (s : State) (m : MachineId) :
    s.countProgress m n = { s with phase := .running m (n + 1) } := if_pos h

/-- The seventeenth transition that returns progress is the last one of its machine. -/
theorem State.countProgress_of_cap (h : 17 ≤ n + 1) (s : State) (m : MachineId) :
    s.countProgress m n = (s.emit (.tooManyStateTransitions m)).machineDone m := if_neg h.not_gt

end

/-- Settles O27: what is counted, by the phase; then the count below and at the cap; and the end of each loop. -/
theorem schedulerCountsTransitions : Obligations.SchedulerCountsTransitions := by
  intro s m m' n
  refine ⟨fun hidle => s.counts_nothing_of_idle hidle m, fun hother hne => State.counts_nothing_of_other hother hne,
    fun hrun hlt => ?counted, fun hrun hcap => ?capOutgoing, fun hrun hcap => ?capIncoming,
    fun hrun => ?endOutgoing, fun hrun => ?endIncoming⟩
  case counted => rw [State.afterProgress_of_running hrun, State.countProgress_of_lt hlt]
  case capOutgoing => rw [State.afterProgress_of_running hrun, State.countProgress_of_cap hcap]; rfl
  case capIncoming => rw [State.afterProgress_of_running hrun, State.countProgress_of_cap hcap]; rfl
  case endOutgoing => rw [State.afterNoProgress_of_running hrun]; rfl
  case endIncoming => rw [State.afterNoProgress_of_running hrun]; rfl

/-! ## The commands that reset (R210 to R212) -/

/-- CD-12: the bytes of RESET(0). -/
theorem resetFrame_toList :
    resetFrame.toList = [0xAA, 0x00, 0x03, 0, 0, 0, 0, 0, 0, 0, 0, 0, 0x65, 0xC0, 0x55] := by
  decide +kernel

/-- Settles O23: by the room in EO; the local reset follows in both cases. -/
theorem sendResetCommandResult : Obligations.SendResetCommandResult := by
  intro now s hidle
  have hexec : exec (.sendReset now) s = .next (s.sendReset now) := whenIdle_idle hidle _
  refine ⟨fun hroom => ?written, fun hless => ?notWritten⟩
  case written =>
    rw [hexec, State.sendReset, if_pos (s.eoHasRoom_iff.mpr hroom), State.writeFrame, resetFrame_toList]
    rfl
  case notWritten =>
    rw [hexec, State.sendReset, if_neg (mt s.eoHasRoom_iff.mp hless.not_ge)]
    rfl

/-- Settles O24: with no command in progress the meaning is the local reset and the response. -/
theorem resetNumberingCommandResult : Obligations.ResetNumberingCommandResult :=
  fun _ _ hidle => whenIdle_idle hidle _

theorem exec_tick_of_idle {s : State} (hidle : s.phase = .idle) (now : Time) :
    exec (.tick now) s = .next { (s.sample now).silenceCheck with phase := .running .outgoing 0 } :=
  whenIdle_idle hidle _

/-- Settles O25: by what the silence check does. -/
theorem tickBeginsWithSilenceCheck : Obligations.TickBeginsWithSilenceCheck := by
  intro now s hidle
  rw [exec_tick_of_idle hidle]
  rcases (s.sample now).silenceCheck_cases with ⟨hlong, heq⟩ | ⟨hshort, heq⟩ <;> rw [heq]
  · exact ⟨fun _ => rfl, fun hless => absurd hlong hless.not_ge⟩
  · exact ⟨fun hmore => absurd hmore hshort.not_ge, fun _ => rfl⟩

/-! ## What a step reads (R207, R66, R72) -/

theorem Port.bytes_eq_cons_dropOldest {p : Port} {b : Byte} {rest : List Byte} (h : p.bytes = b :: rest) :
    p.bytes = b :: p.dropOldest.bytes := by
  rw [Port.dropOldest_of_cons h, h]

/-- Settles O57: of all that a step can do, only READ_DATA (`collect`) reads PO, and only WAIT_FOR_START_BYTE (`discard`)
and READ_INCOMING_DATA (`store`) read EI. -/
theorem stepReadsAtMostOneByte : Obligations.StepReadsAtMostOneByte := by
  intro s t h
  rcases step_cases h with ⟨-, rest, hr⟩ | ⟨n, v, -, hr, hc⟩ | ⟨n, v, -, hr, hc⟩
  · cases hr <;> exact ⟨rfl, rfl, .inl ⟨rfl, rfl⟩⟩
  · obtain ⟨phase, resp, diag, rfl⟩ := hc.frame
    cases hr with
    | collect b rest hst hpo => exact ⟨rfl, rfl, .inr (.inl ⟨rfl, b, Port.bytes_eq_cons_dropOldest hpo⟩)⟩
    | _ => exact ⟨rfl, rfl, .inl ⟨rfl, rfl⟩⟩
  · obtain ⟨phase, resp, diag, rfl⟩ := hc.frame
    cases hr with
    | discard b rest hst hei | store b rest hst hei =>
      exact ⟨rfl, rfl, .inr (.inr ⟨rfl, b, Port.bytes_eq_cons_dropOldest hei⟩)⟩
    | _ => exact ⟨rfl, rfl, .inl ⟨rfl, rfl⟩⟩

end Sys2Proof.Machine

/-! # The sequencing family: a TICK, run to its end, is its pseudocode (R207 to R210)

The steps run the transitions with the scheduler's count in `phase`, the pseudocode runs them with `phase` idle. No
transition reads or writes `phase`, so the two make the same transitions; the count then follows the loop of R208. -/

namespace Sys2Proof.Safety

open Sys2Proof.Machine

/-! ## No transition reads the phase -/

/-- `s` as it stands in a TICK, or outside one, at phase `p`. -/
def atPhase (p : Phase) (s : State) : State := { s with phase := p }

/-- A transition's answer, its state at phase `p`. -/
def answerAtPhase (p : Phase) : Transition → Transition
  | .progress s => .progress (atPhase p s)
  | .noProgress s => .noProgress (atPhase p s)
  | .fault r => .fault r

section
variable (p : Phase) (s : State)

theorem readTimer_atPhase : readTimer (atPhase p s) = answerAtPhase p (readTimer s) := by
  simp only [readTimer, apply_ite (answerAtPhase p)]
  rfl

theorem outReadData_atPhase : outReadData (atPhase p s) = answerAtPhase p (outReadData s) := by
  rcases outReadData_cases s with ⟨b, rest, hpo, hroom, -⟩ | ⟨hno, heq⟩
  · rw [outReadData_of_byte hpo hroom]
    exact outReadData_of_byte hpo hroom
  · rw [heq, ← readTimer_atPhase]
    exact outReadData_of_no_byte hno

theorem outSendPackage_atPhase : outSendPackage (atPhase p s) = answerAtPhase p (outSendPackage s) := by
  simp only [outSendPackage, apply_ite (answerAtPhase p)]
  rfl

theorem acknowledged_atPhase : (atPhase p s).acknowledged = atPhase p s.acknowledged := by
  by_cases hopn : s.opn = 255
  · rw [State.acknowledged_of_255 hopn]
    exact State.acknowledged_of_255 hopn
  · rw [State.acknowledged_of_ne_255 hopn]
    exact State.acknowledged_of_ne_255 hopn

theorem retryOrAbandon_atPhase : (atPhase p s).retryOrAbandon = atPhase p s.retryOrAbandon := by
  rcases s.retryOrAbandon_cases with ⟨hlt, heq⟩ | ⟨hge, heq⟩ <;> rw [heq]
  · exact State.retryOrAbandon_of_lt hlt
  · exact State.retryOrAbandon_of_ge hge

theorem outWait_atPhase : outWait (atPhase p s) = answerAtPhase p (outWait s) := by
  rcases outWait_cases s with ⟨reason, rest, hpq, -⟩ | ⟨reason, rest, hpq, -⟩ | ⟨e, rest, hpq, hpn, -⟩ |
    ⟨hpq, htime, heq⟩ | ⟨hpq, htime, heq⟩
  · rw [outWait_of_ack hpq, answerAtPhase, ← acknowledged_atPhase]
    exact outWait_of_ack hpq
  · rw [outWait_of_nack hpq, answerAtPhase, ← retryOrAbandon_atPhase]
    exact outWait_of_nack hpq
  · rw [outWait_of_stale hpq hpn]
    exact outWait_of_stale hpq hpn
  · rw [heq, answerAtPhase, ← retryOrAbandon_atPhase]
    exact outWait_of_timeout hpq htime
  · rw [heq]
    exact outWait_of_waiting hpq htime

theorem inWaitStart_atPhase : inWaitStart (atPhase p s) = answerAtPhase p (inWaitStart s) := by
  rcases inWaitStart_cases s with ⟨hei, heq⟩ | ⟨b, rest, hei, hb, -⟩ | ⟨rest, hei, heq⟩
  · rw [heq]
    exact inWaitStart_of_no_byte hei
  · rw [inWaitStart_of_junk hei hb]
    exact inWaitStart_of_junk hei hb
  · rw [heq]
    exact inWaitStart_of_startByte hei

theorem inRead_atPhase : inRead (atPhase p s) = answerAtPhase p (inRead s) := by
  cases hei : s.ei.bytes with
  | nil =>
    simp only [inRead, hei, show (atPhase p s).ei.bytes = [] from hei, apply_ite (answerAtPhase p)]
    rfl
  | cons b rest =>
    simp only [inRead, hei, show (atPhase p s).ei.bytes = b :: rest from hei]
    rfl

theorem resetIfAsked_atPhase (a : FrameAction) : (atPhase p s).resetIfAsked a = atPhase p (s.resetIfAsked a) := by
  unfold State.resetIfAsked
  split_ifs <;> rfl

theorem commitFrame_atPhase (pn : Byte) (a : FrameAction) :
    commitFrame (atPhase p s) pn a = atPhase p (commitFrame s pn a) := by
  have hreport (s : State) : (atPhase p s).reportInvalid a = atPhase p (s.reportInvalid a) := by
    simp only [State.reportInvalid_eq]
    rfl
  have hdeliver (s : State) : (atPhase p s).deliverPayload pn a = atPhase p (s.deliverPayload pn a) := by
    simp only [State.deliverPayload_eq]
    rfl
  have henqueue (s : State) : (atPhase p s).enqueueResponse a = atPhase p (s.enqueueResponse a) := by
    simp only [State.enqueueResponse_eq]
    rfl
  have hreply (s : State) : (atPhase p s).sendReply a = atPhase p (s.sendReply a) := by
    simp only [State.sendReply_eq]
    rfl
  simp only [commitFrame, hreport, hdeliver, resetIfAsked_atPhase, henqueue, hreply]
  rfl

theorem performFrame_atPhase (pn : Byte) (a : FrameAction) :
    performFrame (atPhase p s) pn a = answerAtPhase p (performFrame s pn a) := by
  rcases performFrame_cases s pn a with
    ⟨hreply, hless, heq⟩ | ⟨hroom, ⟨bs, hdeliver, hless⟩, heq⟩ | ⟨hroom, hpi, heq⟩ <;> rw [heq]
  · exact performFrame_of_no_eo hreply hless
  · exact performFrame_of_no_pi hroom hdeliver hless
  · rw [answerAtPhase, ← commitFrame_atPhase]
    exact performFrame_of_room hroom hpi

theorem inProcess_atPhase : inProcess (atPhase p s) = answerAtPhase p (inProcess s) :=
  performFrame_atPhase p s (framePn s.ibuf) (frameAction s s.ibuf)

/-- R207: a transition does the same at every phase, and leaves the phase as it is. -/
theorem transition_atPhase (m : MachineId) : transition m (atPhase p s) = answerAtPhase p (transition m s) := by
  cases m with
  | outgoing =>
    simp only [transition, outReadData_atPhase, outSendPackage_atPhase, outWait_atPhase, apply_ite (answerAtPhase p)]
    rfl
  | incoming =>
    simp only [transition, inWaitStart_atPhase, inRead_atPhase, inProcess_atPhase, apply_ite (answerAtPhase p)]
    rfl

end

/-! ## No transition begins a command or schedules an action -/

/-- No command is in progress, and no action of the outside is due. -/
def AtRest (s : State) : Prop := s.phase = .idle ∧ s.schedule = []

theorem transition_keeps_atRest {s : State} (h : AtRest s) (m : MachineId) : (transition m s).Leaves AtRest := by
  intro v hv
  cases m with
  | outgoing => cases outgoing_leaves s v hv <;> exact h
  | incoming => cases incoming_leaves s v hv <;> exact h

theorem silenceCheck_keeps_atRest {s : State} (h : AtRest s) : AtRest s.silenceCheck := by
  rcases s.silenceCheck_cases with ⟨-, heq⟩ | ⟨-, heq⟩ <;> rw [heq] <;> exact h

/-! ## Runs -/

section
variable {M : Host.Core} {s t : M.State}

theorem run_succ_of_next (h : M.step s = .next t) (k : Nat) : M.run (k + 1) s = M.run k t := by
  simp only [Host.Core.run, h]

theorem run_succ_of_fault {r : M.Fault} (h : M.step s = .fault r) (k : Nat) : M.run (k + 1) s = .fault r := by
  simp only [Host.Core.run, h]

end

/-- Some run of at most `k` steps from `s` answers `o`. -/
def ReachesWithin (k : Nat) (s : State) (o : Host.Outcome State Fault Refusal) : Prop :=
  ∃ j, j ≤ k ∧ Host.Core.run Sys2Proof.core j s = o

section
variable {k k' : Nat} {s t : State} {o : Host.Outcome State Fault Refusal}

theorem ReachesWithin.refl (s : State) : ReachesWithin 0 s (.next s) := ⟨0, Nat.le_refl 0, rfl⟩

theorem ReachesWithin.mono (hk : k ≤ k') : ReachesWithin k s o → ReachesWithin k' s o
  | ⟨j, hj, hrun⟩ => ⟨j, hj.trans hk, hrun⟩

theorem ReachesWithin.of_step_next (h : step s = .next t) :
    ReachesWithin k t o → ReachesWithin (k + 1) s o
  | ⟨j, hj, hrun⟩ => ⟨j + 1, Nat.succ_le_succ hj, (run_succ_of_next (M := Sys2Proof.core) h j).trans hrun⟩

theorem ReachesWithin.of_step_fault {r : Fault} (h : step s = .fault r) : ReachesWithin (k + 1) s (.fault r) :=
  ⟨1, Nat.le_add_left 1 k, run_succ_of_fault (M := Sys2Proof.core) h 0⟩

end

/-! ## The loop of R208

In this section `g` is what the pseudocode does after `runMachine m`, and the steps reach it within `b` steps from the end
of the machine's run. -/

/-- A step inside a TICK runs the transition the pseudocode runs, and counts it. -/
theorem step_of_atRest {v : State} (h : AtRest v) (m : MachineId) (n : Nat) :
    step (atPhase (.running m n) v) = afterTransition m (answerAtPhase (.running m n) (transition m v)) := by
  have hinputs : State.takeInputs (atPhase (.running m n) v) = atPhase (.running m n) v :=
    State.takeInputs_empty h.2
  have hrunning : (State.takeInputs (atPhase (.running m n) v)).phase = .running m n := by
    rw [hinputs]
    rfl
  rw [step_of_running hrunning, hinputs, transition_atPhase]

/-- The end of a machine's run replaces the phase. -/
theorem machineDone_atPhase (p : Phase) (v : State) (m : MachineId) :
    (atPhase p v).machineDone m = v.machineDone m := by
  cases m <;> rfl

section
variable {m : MachineId} {g : State → Host.Outcome State Fault Refusal} {b : Nat}

/-- One turn of the loop: a transition that returns progress leaves the loop one transition fewer, any other ends it. -/
theorem runMachine_succ_reached {n k j : Nat} {v : State} (hv : AtRest v) (hb : b ≤ j)
    (hdone : ∀ u, AtRest u → ReachesWithin b (u.machineDone m) (g u))
    (hprogress : ∀ u, AtRest u →
      ReachesWithin j ((atPhase (.running m n) u).countProgress m n) (andThen (runMachine m k u) g)) :
    ReachesWithin (j + 1) (atPhase (.running m n) v) (andThen (runMachine m (k + 1) v) g) := by
  have hstep := step_of_atRest hv m n
  have hleaves := transition_keeps_atRest hv m
  rw [runMachine]
  cases ht : transition m v with
  | progress u =>
    rw [ht] at hstep hleaves
    rw [answerAtPhase, afterTransition, State.afterProgress_of_running rfl] at hstep
    exact .of_step_next hstep (hprogress u (hleaves u (.inl rfl)))
  | noProgress u =>
    rw [ht] at hstep hleaves
    rw [answerAtPhase, afterTransition, State.afterNoProgress_of_running rfl, machineDone_atPhase] at hstep
    exact .of_step_next hstep ((hdone u (hleaves u (.inr rfl))).mono hb)
  | fault r =>
    rw [ht] at hstep
    exact .of_step_fault hstep

/-- The steps of machine `m` from the count `n` on are R208's loop with the transitions left under the cap of 17. -/
theorem runMachine_reached (hdone : ∀ u, AtRest u → ReachesWithin b (u.machineDone m) (g u)) (k : Nat) :
    ∀ {n : Nat} {v : State}, AtRest v → n + (k + 1) = 17 →
      ReachesWithin (b + k + 1) (atPhase (.running m n) v) (andThen (runMachine m (k + 1) v) g) := by
  induction k with
  | zero =>
    intro n v hv hn
    refine runMachine_succ_reached hv (Nat.le_refl b) hdone fun u hu => ?_
    rw [State.countProgress_of_cap hn.ge]
    have hcap := hdone (u.emit (.tooManyStateTransitions m)) hu
    rwa [← machineDone_atPhase (.running m n)] at hcap
  | succ k ih =>
    intro n v hv hn
    refine runMachine_succ_reached hv (Nat.le_add_right b (k + 1)) hdone fun u hu => ?_
    rw [State.countProgress_of_lt (by omega)]
    exact ih hu (by omega)

end

/-! ## The whole TICK (R209) -/

/-- The first step takes the command, checks the silence and starts the outgoing machine. -/
theorem step_tick {s : State} {now : Time} {rest : List Byte} (hs : AtRest s)
    (hcmd : s.cmd = 0x01 :: (bytesOfTime now ++ rest)) :
    step s = .next (atPhase (.running .outgoing 0) (State.sample { s with cmd := rest } now).silenceCheck) := by
  obtain ⟨hidle, hschedule⟩ := hs
  have hinputs : s.takeInputs = s := State.takeInputs_empty hschedule
  have hdecode : decodeCommand s.takeInputs.cmd = .complete (.tick now) rest := by
    rw [hinputs, hcmd]
    exact decodeCommand_of_encode (i := .tick now) trivial rfl rest
  rw [step_of_complete (hinputs.symm ▸ hidle) hdecode, hinputs]
  exact exec_tick_of_idle (s := { s with cmd := rest }) hidle now

/-- The incoming machine's loop and the response, the second half of a TICK. -/
theorem incomingHalf_reached {u : State} (hu : AtRest u) :
    ReachesWithin 17 (atPhase (.running .incoming 0) u)
      (andThen (runMachine .incoming Config.transitionCap u) fun s => .next (s.respond [statusDone])) := by
  refine runMachine_reached (b := 0) (fun v hv => ?_) 16 hu rfl
  have hdone : v.machineDone .incoming = v.respond [statusDone] := by
    rw [State.machineDone, ← hv.1]
  rw [hdone]
  exact .refl _

/-- Settles O26: one step for the command, at most 17 for each machine. -/
theorem tickRunsItsPseudocode : Obligations.TickRunsItsPseudocode := by
  intro s now rest hidle hschedule hcmd
  have hstart : AtRest (State.sample { s with cmd := rest } now).silenceCheck :=
    silenceCheck_keeps_atRest ⟨hidle, hschedule⟩
  have hmachines := runMachine_reached (m := .outgoing) (fun u hu => incomingHalf_reached hu) 16 hstart rfl
  exact ReachesWithin.of_step_next (step_tick ⟨hidle, hschedule⟩ hcmd) hmachines

end Sys2Proof.Safety

/-! # The exceptions family: the block never halts, between commands it holds its state, the codes differ -/

namespace Sys2Proof.Machine

open Sys2Proof.Safety

/-! ## No state that R37 admits stops (R240) -/

/-- The outside keeps OCNT within OBUF: only `por` writes OCNT, and clears it. -/
theorem takeInputs_ocnt_le {s : State} (h : s.ocnt.toNat ≤ 8) : s.takeInputs.ocnt.toNat ≤ 8 := by
  refine takeInputs_keeps (P := fun s => s.ocnt.toNat ≤ 8) (fun _ _ h => h) ?_ h
  intro s x h
  cases x with
  | por => exact Nat.zero_le 8
  | _ => exact h

/-- A command of R88 with none in progress answers a next state. -/
theorem exec_command_of_idle {bytes rest : List Byte} {i : Instr} {s : State}
    (hd : decodeCommand bytes = .complete i rest) (hidle : s.phase = .idle) : ∃ t, exec i s = .next t := by
  rcases decodeCommand_complete hd with ⟨now, rfl⟩ | ⟨now, rfl⟩ | ⟨now, rfl⟩ | ⟨bs, rfl⟩ | ⟨type, pn, payload, rfl⟩ |
    ⟨f, rfl⟩ <;> exact ⟨_, whenIdle_idle hidle _⟩

/-- With no command in progress a step answers a next state, whatever stands in the command stream. -/
theorem step_next_of_idle {s : State} (hidle : s.takeInputs.phase = .idle) : ∃ t, step s = .next t := by
  cases hd : decodeCommand s.takeInputs.cmd with
  | complete i rest =>
    rw [step_of_complete hidle hd]
    exact exec_command_of_idle hd hidle
  | incomplete => exact ⟨_, step_of_incomplete hidle hd⟩
  | reserved c rest => exact ⟨_, step_of_reserved hidle hd⟩

/-- Settles O48: a command never stops, a transition is never refused, and the one fault needs OCNT above 8. -/
theorem stepNeverStops : Obligations.StepNeverStops := by
  intro s hs
  obtain ⟨⟨-, hocnt, -⟩, -⟩ := hs
  have hcnt : s.takeInputs.ocnt.toNat ≤ 8 := takeInputs_ocnt_le hocnt
  cases hphase : s.takeInputs.phase with
  | idle => exact step_next_of_idle hphase
  | running m n =>
    cases h : step s with
    | next t => exact ⟨t, rfl⟩
    | fault r =>
      rw [step_of_selected hphase] at h
      obtain ⟨-, hover⟩ := exec_fault h
      omega
    | refused r =>
      rw [step_of_running hphase] at h
      exact absurd h (afterTransition_not_refused m _ r)

/-! ## Between commands (R255) -/

/-- Settles O9: an empty command stream holds no whole command. -/
theorem idleBlockHoldsItsState : Obligations.IdleBlockHoldsItsState := by
  intro s hidle hcmd
  have hwait : decodeCommand s.takeInputs.cmd = .incomplete := by rw [hcmd, decodeCommand]
  exact step_of_incomplete hidle hwait

/-! ## The codes of the reasons (R241) -/

theorem reasonIndex_injective : Function.Injective reasonIndex := by
  intro r r'
  cases r <;> cases r' <;> decide

/-- Settles O18: the assignment is a permutation, and the reasons are numbered apart. -/
theorem nackCodeIsInjective : Obligations.NackCodeIsInjective :=
  fun _ _ h => reasonIndex_injective (Config.nackCodeAssignment.injective h)

end Sys2Proof.Machine

/-! # The exceptions family: the diagnostic output is never read (R243)

Events emitted before those of a state, its history, change nothing: every operation, transition and command with a
history is the one without it, with the history put before what it leaves. Two states that differ in `diag` alone are
the state without events with two histories, so they step alike. -/

namespace Sys2Proof.Machine

open Sys2Proof.Safety

/-- `s` with the events `d` emitted before its own. -/
def State.withHistory (s : State) (d : List DiagEvent) : State := { s with diag := d ++ s.diag }

/-- A transition's answer, its state with the history `d`. -/
def Transition.withHistory (d : List DiagEvent) : Transition → Transition
  | .progress s => .progress (s.withHistory d)
  | .noProgress s => .noProgress (s.withHistory d)
  | .fault r => .fault r

/-- A step's answer, its state with the history `d`. -/
def outcomeWithHistory (d : List DiagEvent) : Host.Outcome State Fault Refusal → Host.Outcome State Fault Refusal
  | .next s => .next (s.withHistory d)
  | .fault r => .fault r
  | .refused r => .refused r

section
variable (s : State) (d : List DiagEvent)

/-! ## The fields that the rules branch on stay -/

@[simp] theorem State.withHistory_phase : (s.withHistory d).phase = s.phase := rfl
@[simp] theorem State.withHistory_cmd : (s.withHistory d).cmd = s.cmd := rfl
@[simp] theorem State.withHistory_pq : (s.withHistory d).pq = s.pq := rfl
@[simp] theorem State.withHistory_ibuf : (s.withHistory d).ibuf = s.ibuf := rfl
@[simp] theorem State.withHistory_po : (s.withHistory d).po = s.po := rfl
@[simp] theorem State.withHistory_ei : (s.withHistory d).ei = s.ei := rfl

/-! ## The operations -/

theorem State.sample_withHistory (now : Time) : (s.withHistory d).sample now = (s.sample now).withHistory d := rfl

theorem State.emit_withHistory (e : DiagEvent) : (s.withHistory d).emit e = (s.emit e).withHistory d := by
  simp only [State.emit, State.withHistory, List.append_assoc]

theorem State.advanceOPN_withHistory : (s.withHistory d).advanceOPN = s.advanceOPN.withHistory d := by
  simp only [State.advanceOPN, apply_ite (State.withHistory · d)]
  rfl

theorem State.pqPush_withHistory (e : PendingMessage) : (s.withHistory d).pqPush e = (s.pqPush e).withHistory d := by
  simp only [State.pqPush, State.emit_withHistory, apply_ite (State.withHistory · d)]
  rfl

theorem State.silenceCheck_withHistory : (s.withHistory d).silenceCheck = s.silenceCheck.withHistory d := by
  simp only [State.silenceCheck, State.emit_withHistory, apply_ite (State.withHistory · d)]
  rfl

theorem State.retryOrAbandon_withHistory : (s.withHistory d).retryOrAbandon = s.retryOrAbandon.withHistory d := by
  simp only [State.retryOrAbandon, State.emit_withHistory, apply_ite (State.withHistory · d)]
  rfl

theorem State.acknowledged_withHistory : (s.withHistory d).acknowledged = s.acknowledged.withHistory d := by
  rw [State.acknowledged, State.advanceOPN_withHistory]
  rfl

/-! ## The outside -/

theorem State.applyInput_withHistory (x : Input) : (s.withHistory d).applyInput x = (s.applyInput x).withHistory d := by
  cases x <;> rfl

theorem State.applyInputs_withHistory (batch : List Input) :
    ∀ s : State, (s.withHistory d).applyInputs batch = (s.applyInputs batch).withHistory d := by
  induction batch with
  | nil => exact fun _ => rfl
  | cons x xs ih =>
    intro s
    calc (s.withHistory d).applyInputs (x :: xs)
      _ = ((s.applyInput x).withHistory d).applyInputs xs :=
        congrArg (State.applyInputs · xs) (s.applyInput_withHistory d x)
      _ = (s.applyInputs (x :: xs)).withHistory d := ih (s.applyInput x)

theorem State.takeInputs_withHistory : (s.withHistory d).takeInputs = s.takeInputs.withHistory d :=
  State.applyInputs_withHistory d (s.schedule.headD []) { s with schedule := s.schedule.tail }

/-! ## The scheduler's count -/

theorem State.machineDone_withHistory (m : MachineId) :
    (s.withHistory d).machineDone m = (s.machineDone m).withHistory d := by
  cases m <;> rfl

theorem State.countProgress_withHistory (m : MachineId) (n : Nat) :
    (s.withHistory d).countProgress m n = (s.countProgress m n).withHistory d := by
  simp only [State.countProgress, State.emit_withHistory, State.machineDone_withHistory,
    apply_ite (State.withHistory · d)]
  rfl

theorem State.afterProgress_withHistory (m : MachineId) :
    (s.withHistory d).afterProgress m = (s.afterProgress m).withHistory d := by
  rw [State.afterProgress, State.afterProgress, State.withHistory_phase]
  split
  · rfl
  · rw [State.countProgress_withHistory, apply_ite (State.withHistory · d)]

theorem State.afterNoProgress_withHistory (m : MachineId) :
    (s.withHistory d).afterNoProgress m = (s.afterNoProgress m).withHistory d := by
  rw [State.afterNoProgress, State.afterNoProgress, State.withHistory_phase]
  split
  · rfl
  · rw [State.machineDone_withHistory, apply_ite (State.withHistory · d)]

theorem afterTransition_withHistory (m : MachineId) (t : Transition) :
    afterTransition m (t.withHistory d) = outcomeWithHistory d (afterTransition m t) := by
  cases t with
  | progress v => exact congrArg Host.Outcome.next (v.afterProgress_withHistory d m)
  | noProgress v => exact congrArg Host.Outcome.next (v.afterNoProgress_withHistory d m)
  | fault r => rfl

/-! ## The outgoing transitions -/

theorem readTimer_withHistory : readTimer (s.withHistory d) = (readTimer s).withHistory d := by
  simp only [readTimer, apply_ite (Transition.withHistory d)]
  rfl

theorem outReadData_withHistory : outReadData (s.withHistory d) = (outReadData s).withHistory d := by
  rw [outReadData, outReadData, State.withHistory_po, readTimer_withHistory]
  split
  · rw [apply_ite (Transition.withHistory d)]
    rfl
  · rfl

theorem outSendPackage_withHistory : outSendPackage (s.withHistory d) = (outSendPackage s).withHistory d := by
  simp only [outSendPackage, State.emit_withHistory, apply_ite (Transition.withHistory d)]
  rfl

theorem outWait_withHistory : outWait (s.withHistory d) = (outWait s).withHistory d := by
  have hdrop : (s.withHistory d).pqDropHead = s.pqDropHead.withHistory d := rfl
  rw [outWait, outWait, State.withHistory_pq, hdrop, State.acknowledged_withHistory,
    State.retryOrAbandon_withHistory, State.retryOrAbandon_withHistory]
  split <;> simp only [apply_ite (Transition.withHistory d)] <;> rfl

theorem outCorrupt_withHistory : outCorrupt (s.withHistory d) = (outCorrupt s).withHistory d := by
  rw [outCorrupt, State.emit_withHistory]
  rfl

/-! ## The incoming transitions -/

theorem inWaitStart_withHistory : inWaitStart (s.withHistory d) = (inWaitStart s).withHistory d := by
  rw [inWaitStart, inWaitStart, State.withHistory_ei]
  split
  · rfl
  · rw [apply_ite (Transition.withHistory d)]
    rfl

theorem inRead_withHistory : inRead (s.withHistory d) = (inRead s).withHistory d := by
  rw [inRead, inRead, State.withHistory_ei]
  split
  · rfl
  · rw [apply_ite (Transition.withHistory d)]
    rfl

theorem inCorrupt_withHistory : inCorrupt (s.withHistory d) = (inCorrupt s).withHistory d := by
  rw [inCorrupt, State.emit_withHistory]
  rfl

/-! ## Processing a frame: the same action, the same room, the same commit -/

theorem State.reportInvalid_withHistory (a : FrameAction) :
    (s.withHistory d).reportInvalid a = (s.reportInvalid a).withHistory d := by
  unfold State.reportInvalid
  split
  · exact s.emit_withHistory d _
  · rfl

theorem State.deliverPayload_withHistory (pn : Byte) (a : FrameAction) :
    (s.withHistory d).deliverPayload pn a = (s.deliverPayload pn a).withHistory d := by
  unfold State.deliverPayload
  split <;> rfl

theorem State.resetIfAsked_withHistory (a : FrameAction) :
    (s.withHistory d).resetIfAsked a = (s.resetIfAsked a).withHistory d := by
  unfold State.resetIfAsked
  split_ifs <;> rfl

theorem State.enqueueResponse_withHistory (a : FrameAction) :
    (s.withHistory d).enqueueResponse a = (s.enqueueResponse a).withHistory d := by
  unfold State.enqueueResponse
  split
  · exact s.pqPush_withHistory d _
  · rfl

theorem State.sendReply_withHistory (a : FrameAction) :
    (s.withHistory d).sendReply a = (s.sendReply a).withHistory d := by
  unfold State.sendReply
  split <;> rfl

theorem commitFrame_withHistory (pn : Byte) (a : FrameAction) :
    commitFrame (s.withHistory d) pn a = (commitFrame s pn a).withHistory d := by
  rw [commitFrame, State.reportInvalid_withHistory, State.deliverPayload_withHistory, State.resetIfAsked_withHistory,
    State.enqueueResponse_withHistory, State.sendReply_withHistory]
  rfl

theorem inProcess_withHistory : inProcess (s.withHistory d) = (inProcess s).withHistory d := by
  have haction : frameAction (s.withHistory d) s.ibuf = frameAction s s.ibuf := rfl
  simp only [inProcess, performFrame, State.withHistory_ibuf, haction, State.emit_withHistory,
    commitFrame_withHistory, apply_ite (Transition.withHistory d)]
  rfl

/-! ## The step -/

theorem transition_withHistory (m : MachineId) : transition m (s.withHistory d) = (transition m s).withHistory d := by
  cases m with
  | outgoing =>
    simp only [transition, outReadData_withHistory, outSendPackage_withHistory, outWait_withHistory,
      outCorrupt_withHistory, apply_ite (Transition.withHistory d)]
    rfl
  | incoming =>
    simp only [transition, inWaitStart_withHistory, inRead_withHistory, inProcess_withHistory,
      inCorrupt_withHistory, apply_ite (Transition.withHistory d)]
    rfl

theorem whenIdle_withHistory (t : State) :
    whenIdle (s.withHistory d) (t.withHistory d) = outcomeWithHistory d (whenIdle s t) := by
  rw [whenIdle, whenIdle, apply_ite (outcomeWithHistory d)]
  rfl

theorem State.beginTick_withHistory (now : Time) :
    (s.withHistory d).beginTick now = (s.beginTick now).withHistory d := by
  rw [State.beginTick, State.sample_withHistory, State.silenceCheck_withHistory]
  rfl

theorem State.sendReset_withHistory (now : Time) :
    (s.withHistory d).sendReset now = (s.sendReset now).withHistory d := by
  simp only [State.sendReset, State.sample_withHistory, State.emit_withHistory, apply_ite (State.withHistory · d)]
  rfl

theorem exec_command_withHistory {bytes rest : List Byte} {i : Instr} (hd : decodeCommand bytes = .complete i rest) :
    exec i (s.withHistory d) = outcomeWithHistory d (exec i s) := by
  rcases decodeCommand_complete hd with ⟨now, rfl⟩ | ⟨now, rfl⟩ | ⟨now, rfl⟩ | ⟨bs, rfl⟩ | ⟨type, pn, payload, rfl⟩ |
    ⟨f, rfl⟩
  · rw [exec, execTick, State.beginTick_withHistory]
    exact whenIdle_withHistory s d _
  · rw [exec, execSendReset, State.sendReset_withHistory]
    exact whenIdle_withHistory s d _
  · exact whenIdle_withHistory s d (((s.sample now).resetPacketNumbering).respond [statusDone])
  · exact whenIdle_withHistory s d (s.respond (crcResponse bs))
  · exact whenIdle_withHistory s d (s.respond (prepareResponse type pn payload))
  · exact whenIdle_withHistory s d (s.respond (verdictResponse (validate f)))

/-- R243: a step with a history is the step without it, with the history put before what it leaves. -/
theorem step_withHistory : step (s.withHistory d) = outcomeWithHistory d (step s) := by
  have hinputs := s.takeInputs_withHistory d
  cases hphase : s.takeInputs.phase with
  | running m n =>
    have hphase' : (s.withHistory d).takeInputs.phase = .running m n := by rw [hinputs, State.withHistory_phase, hphase]
    rw [step_of_running hphase, step_of_running hphase', hinputs, transition_withHistory, afterTransition_withHistory]
  | idle =>
    have hphase' : (s.withHistory d).takeInputs.phase = .idle := by rw [hinputs, State.withHistory_phase, hphase]
    have hcmd : (s.withHistory d).takeInputs.cmd = s.takeInputs.cmd := by rw [hinputs, State.withHistory_cmd]
    cases hd : decodeCommand s.takeInputs.cmd with
    | complete i rest =>
      rw [step_of_complete hphase hd, step_of_complete hphase' (hcmd ▸ hd), hinputs]
      exact exec_command_withHistory { s.takeInputs with cmd := rest } d hd
    | incomplete =>
      rw [step_of_incomplete hphase hd, step_of_incomplete hphase' (hcmd ▸ hd), hinputs]
      rfl
    | reserved c rest =>
      rw [step_of_reserved hphase hd, step_of_reserved hphase' (hcmd ▸ hd), hinputs]
      rfl

/-- A state whose diagnostic output is `d` is the state without events, with the history `d`. -/
theorem State.eq_withHistory : { s with diag := d } = State.withHistory { s with diag := [] } d := by
  rw [State.withHistory, List.append_nil]

end

/-- Settles O54: both steps are the step from no events, whose own events are the ones appended. -/
theorem diagIsNeverRead : Obligations.DiagIsNeverRead := by
  intro s d
  have hstep (h : List DiagEvent) : step { s with diag := h } = outcomeWithHistory h (step { s with diag := [] }) := by
    rw [State.eq_withHistory, step_withHistory]
  have hself : step s = outcomeWithHistory s.diag (step { s with diag := [] }) := hstep s.diag
  rw [hstep d, hself]
  cases step { s with diag := [] } with
  | next t =>
    refine ⟨fun u hu => ?_, nofun⟩
    cases hu
    exact ⟨t.diag, rfl, rfl⟩
  | fault r => exact ⟨nofun, fun r' hr => hr⟩
  | refused r => exact ⟨nofun, nofun⟩

end Sys2Proof.Machine

/-! # The reset and hazards family: power-on (R270, R271), overlapping commands (R274), and an early ACK (R283) -/

namespace Sys2Proof.Machine

open Sys2Proof.Safety

/-! ## Two transitions of one TICK -/

theorem transition_keeps_phase {m : MachineId} {s v : State} (h : transition m s = .progress v) :
    v.phase = s.phase := by
  cases m with
  | outgoing => exact (outgoing_leaves s v (.inl h)).phase
  | incoming => exact (incoming_leaves s v (.inl h)).phase

/-- With nothing due from the outside, a step inside a TICK whose transition returns progress is that transition,
counted (R208). -/
theorem step_of_progress {m : MachineId} {n : Nat} {s v : State} (hschedule : s.schedule = [])
    (hrun : s.phase = .running m n) (h : transition m s = .progress v) : step s = .next (v.countProgress m n) := by
  have hinputs : s.takeInputs = s := State.takeInputs_empty hschedule
  rw [step_of_running (by rwa [hinputs]), hinputs, h, afterTransition,
    State.afterProgress_of_running ((transition_keeps_phase h).trans hrun)]

/-- R142 and R200 in one update: OPN goes on, and where it wraps LIPN is cleared. -/
theorem State.acknowledged_eq (s : State) :
    s.acknowledged = { s with
      opn := if s.opn = 255 then 1 else s.opn + 1, lipn := if s.opn = 255 then 0 else s.lipn
      oretry := 0, ocnt := 0, ost := 0 } := by
  by_cases hopn : s.opn = 255
  · rw [State.acknowledged_of_255 hopn, if_pos hopn, if_pos hopn]
  · rw [State.acknowledged_of_ne_255 hopn, if_neg hopn, if_neg hopn]

/-- SEND_PACKAGE below the cap: the frame is written, and the TICK goes on in WAIT_FOR_ACK_OR_NACK. -/
theorem step_sendPackage {s : State} {n : Nat} (hschedule : s.schedule = []) (hrun : s.phase = .running .outgoing n)
    (hcap : n + 1 < 17) (hst : s.ost = 1) (hcnt : s.ocnt.toNat ≤ 8) (hroom : 15 ≤ s.eo.availableForWrite) :
    step s = .next { s.writeFrame s.dataFrame with
      oackMark := s.now, ost := 2, phase := .running .outgoing (n + 1) } := by
  have hsend : transition .outgoing s = .progress { s.writeFrame s.dataFrame with oackMark := s.now, ost := 2 } := by
    rw [← outSendPackage_of_room hroom hcnt, transition, hst]
    rfl
  rw [step_of_progress hschedule hrun hsend, State.countProgress_of_lt hcap]

/-- WAIT_FOR_ACK_OR_NACK takes a matching ACK, at any place in the TICK. -/
theorem step_takes_ack {s : State} {n : Nat} {reason : Option Byte} {rest : List PendingMessage}
    (hschedule : s.schedule = []) (hrun : s.phase = .running .outgoing n) (hst : s.ost = 2)
    (hpq : s.pq = ⟨.ack, s.opn, reason⟩ :: rest) :
    step s = .next (State.countProgress { s with pq := rest }.acknowledged .outgoing n) := by
  have htake : transition .outgoing s = .progress { s with pq := rest }.acknowledged := by
    rw [← outWait_of_ack hpq, transition, hst]
    rfl
  exact step_of_progress hschedule hrun htake

/-- Settles O35: SEND_PACKAGE leaves the queue as it is, so the transition behind it takes the ACK. -/
theorem earlyAckAcknowledgesAtOnce : Obligations.EarlyAckAcknowledgesAtOnce := by
  intro s n reason rest hschedule hrun hcap hst hcnt hroom hpq
  have hsend := step_sendPackage hschedule hrun (by omega) hst hcnt hroom
  have htake := step_takes_ack (s := { s.writeFrame s.dataFrame with
    oackMark := s.now, ost := 2, phase := .running .outgoing (n + 1) }) hschedule rfl rfl hpq
  refine ⟨_, (run_succ_of_next (M := Sys2Proof.core) hsend 1).trans
    (run_succ_of_next (M := Sys2Proof.core) htake 0), ?_⟩
  rw [State.countProgress_frame, State.acknowledged_eq]
  exact ⟨rfl, rfl, rfl, rfl, rfl⟩

/-! ## Overlapping commands (R274, log 13) -/

theorem whenIdle_of_busy {s : State} (h : s.phase ≠ .idle) (t : State) :
    whenIdle s t = .refused .overlappingCommands :=
  if_neg h

theorem step_ne_refused (s : State) (r : Refusal) : step s ≠ .refused r := by
  cases hphase : s.takeInputs.phase with
  | idle =>
    obtain ⟨t, hnext⟩ := step_next_of_idle hphase
    rw [hnext]
    exact nofun
  | running m n =>
    rw [step_of_running hphase]
    exact afterTransition_not_refused m _ r

/-- Settles O10: each command's meaning is under `whenIdle`, and a step fetches one only when none is in progress. -/
theorem overlappingCommandsRefused : Obligations.OverlappingCommandsRefused := by
  refine ⟨fun s now bytes type pn payload f hbusy => ?_, step_ne_refused⟩
  simp only [List.forall_mem_cons]
  exact ⟨whenIdle_of_busy hbusy _, whenIdle_of_busy hbusy _, whenIdle_of_busy hbusy _, whenIdle_of_busy hbusy _,
    whenIdle_of_busy hbusy _, whenIdle_of_busy hbusy _, nofun⟩

/-! ## Power-on (R270, R20) -/

/-- Log 1: the state at reset is one in which `por` has just been sampled at time 0. -/
theorem State.reset_eq_powerOn : State.reset = State.reset.powerOn 0 := rfl

@[simp] theorem State.powerOn_pqLen (s : State) (t : Time) : (s.powerOn t).pqLen = 0 := rfl

/-- Settles O50: they are the values that `por` gives. -/
theorem resetHoldsPowerOnValues : Obligations.ResetHoldsPowerOnValues := by
  unfold Obligations.ResetHoldsPowerOnValues
  rw [State.reset_eq_powerOn]
  simp

/-- With one action due, the outside does that action. -/
theorem State.takeInputs_of_single {s : State} {x : Input} {rest : List (List Input)} (h : s.schedule = [x] :: rest) :
    s.takeInputs = { s with schedule := rest }.applyInput x := by
  rw [State.takeInputs, h]
  rfl

/-- Settles O51: `por` leaves no command in progress, and with no command byte waiting the step does nothing more. -/
theorem powerOnResetsRegistersOnly : Obligations.PowerOnResetsRegistersOnly := by
  intro s t rest hschedule hcmd
  have hinputs : s.takeInputs = { s with schedule := rest }.powerOn t := State.takeInputs_of_single hschedule
  have hstep : step s = .next ({ s with schedule := rest }.powerOn t) := by
    rw [idleBlockHoldsItsState s (by rw [hinputs]; rfl) (by rw [hinputs]; exact hcmd), hinputs]
  exact ⟨_, hstep, by simp⟩

/-- Settles O52: both leave the counts at 0 and the machines in their first states, where the contents in which they
differ are not defined. -/
theorem powerOnEqualsLocalReset : Obligations.PowerOnEqualsLocalReset := fun _ _ =>
  ⟨rfl, take_of_count_zero _ _ rfl, take_of_count_zero _ _ rfl, fun hne => absurd rfl hne, nofun, nofun⟩

/-! ## The invariant at reset (R37) -/

theorem reset_r37 : R37 State.reset :=
  (r37_iff State.reset).mpr
    ⟨outgoingLegal_of_idle Nat.le.refl rfl rfl rfl, incomingLegal_of_idle rfl rfl, Nat.zero_le 4⟩

/-- Empty streams are within their capacities, whatever these are. -/
theorem reset_streamsBounded : StreamsBounded State.reset :=
  ⟨Nat.zero_le _, Nat.zero_le _, Nat.zero_le _, Nat.zero_le _⟩

/-- Settles O49: both machines are idle, the streams and the queue are empty, and no TICK is running. -/
theorem resetMeetsInvariant : Obligations.ResetMeetsInvariant := by
  obtain ⟨hroom, hstart⟩ := receptionLegal_of_waiting (s := State.reset) rfl
  exact ⟨reset_r37, hroom, hstart, reset_streamsBounded, nofun, nofun⟩

end Sys2Proof.Machine
